-- ==== Sys2Proof/Word.lean ====
section
/-! DEFINITION. The word types of PADMODE (00_scope.md R10 to R12). -/

namespace Sys2Proof

/-- An 8-bit value (00_scope.md R11). -/
abbrev Byte := BitVec 8

/-- A 32-bit register, command word or bus datum (00_scope.md R10). -/
abbrev Word := BitVec 32

/-- A 64-bit quantity, held by the spec as a `_LO`/`_HI` pair of registers (20_memory.md R55). -/
abbrev DWord := BitVec 64

/-- A finite sequence of bytes, index 0 first (00_scope.md R11). -/
abbrev Bytes := List Byte

end Sys2Proof
end

