-- ==== Sys2Proof/Syntax.lean ====
section
/-! DEFINITION. The commands of PADMODE (30_encoding.md): one constructor of Instr per row of
spec/opcode_table.json, and the same commands seen by their fields (Command). -/

namespace Sys2Proof

/-- The padding schemes of the SCHEME field other than NONE (30_encoding.md R72). NONE, the source's
`nil` padding, is `none` in an `Option Scheme`. -/
inductive Scheme where
  | zero | bit | pkcs7 | pkcs5 | x923 | iso7816 | iso10126
  deriving DecidableEq, Repr

/-- The cipher modes of the MODE field other than GCM (30_encoding.md R73). -/
inductive BMode where
  | ecb | cbc | cfb | ofb | ctr
  deriving DecidableEq, Repr

/-- The GCM call variants of the GVAR field (30_encoding.md R74). -/
inductive GVar where
  | std | nonce | tag
  deriving DecidableEq, Repr

/-- The validator predicates of the VSEL field (30_encoding.md R75). -/
inductive Pred where
  | keysize | blocksize | ivsize | iveq | ciphertext | stdnonce | noncesize | tagsize | datasize | empty
  deriving DecidableEq, Repr

/-- The command set, one constructor per row of the opcode table (30_encoding.md R80). A command has no
operand field: its operands are registers and buffers (30_encoding.md R79, R83). -/
inductive Instr where
  | padZero | padBit | padPkcs7 | padPkcs5 | padX923 | padIso7816 | padIso10126
  | unpadZero | unpadBit | unpadPkcs7 | unpadPkcs5 | unpadX923 | unpadIso7816 | unpadIso10126
  | valKeysize | valBlocksize | valIvsize | valIveq | valCiphertext | valStdnonce | valNoncesize | valTagsize | valDatasize | valEmpty
  | encEcbNone | encEcbZero | encEcbBit | encEcbPkcs7 | encEcbPkcs5 | encEcbX923 | encEcbIso7816 | encEcbIso10126
  | decEcbNone | decEcbZero | decEcbBit | decEcbPkcs7 | decEcbPkcs5 | decEcbX923 | decEcbIso7816 | decEcbIso10126
  | encCbcNone | encCbcZero | encCbcBit | encCbcPkcs7 | encCbcPkcs5 | encCbcX923 | encCbcIso7816 | encCbcIso10126
  | decCbcNone | decCbcZero | decCbcBit | decCbcPkcs7 | decCbcPkcs5 | decCbcX923 | decCbcIso7816 | decCbcIso10126
  | encCfbNone | encCfbZero | encCfbBit | encCfbPkcs7 | encCfbPkcs5 | encCfbX923 | encCfbIso7816 | encCfbIso10126
  | decCfbNone | decCfbZero | decCfbBit | decCfbPkcs7 | decCfbPkcs5 | decCfbX923 | decCfbIso7816 | decCfbIso10126
  | encOfbNone | encOfbZero | encOfbBit | encOfbPkcs7 | encOfbPkcs5 | encOfbX923 | encOfbIso7816 | encOfbIso10126
  | decOfbNone | decOfbZero | decOfbBit | decOfbPkcs7 | decOfbPkcs5 | decOfbX923 | decOfbIso7816 | decOfbIso10126
  | encCtrNone | encCtrZero | encCtrBit | encCtrPkcs7 | encCtrPkcs5 | encCtrX923 | encCtrIso7816 | encCtrIso10126
  | decCtrNone | decCtrZero | decCtrBit | decCtrPkcs7 | decCtrPkcs5 | decCtrX923 | decCtrIso7816 | decCtrIso10126
  | encGcmStd | decGcmStd | encGcmNonce | decGcmNonce | encGcmTag | decGcmTag
  deriving DecidableEq, Repr

/-- A command by what its fields select (30_encoding.md R71 to R75). -/
inductive Command where
  | pad (s : Scheme)
  | unpad (s : Scheme)
  | val (p : Pred)
  | enc (m : BMode) (s : Option Scheme)
  | dec (m : BMode) (s : Option Scheme)
  | encGcm (v : GVar)
  | decGcm (v : GVar)
  deriving DecidableEq, Repr

/-- The fields a command selects (30_encoding.md R80). -/
def Instr.command : Instr → Command
  | .padZero => .pad .zero
  | .padBit => .pad .bit
  | .padPkcs7 => .pad .pkcs7
  | .padPkcs5 => .pad .pkcs5
  | .padX923 => .pad .x923
  | .padIso7816 => .pad .iso7816
  | .padIso10126 => .pad .iso10126
  | .unpadZero => .unpad .zero
  | .unpadBit => .unpad .bit
  | .unpadPkcs7 => .unpad .pkcs7
  | .unpadPkcs5 => .unpad .pkcs5
  | .unpadX923 => .unpad .x923
  | .unpadIso7816 => .unpad .iso7816
  | .unpadIso10126 => .unpad .iso10126
  | .valKeysize => .val .keysize
  | .valBlocksize => .val .blocksize
  | .valIvsize => .val .ivsize
  | .valIveq => .val .iveq
  | .valCiphertext => .val .ciphertext
  | .valStdnonce => .val .stdnonce
  | .valNoncesize => .val .noncesize
  | .valTagsize => .val .tagsize
  | .valDatasize => .val .datasize
  | .valEmpty => .val .empty
  | .encEcbNone => .enc .ecb none
  | .encEcbZero => .enc .ecb (some .zero)
  | .encEcbBit => .enc .ecb (some .bit)
  | .encEcbPkcs7 => .enc .ecb (some .pkcs7)
  | .encEcbPkcs5 => .enc .ecb (some .pkcs5)
  | .encEcbX923 => .enc .ecb (some .x923)
  | .encEcbIso7816 => .enc .ecb (some .iso7816)
  | .encEcbIso10126 => .enc .ecb (some .iso10126)
  | .decEcbNone => .dec .ecb none
  | .decEcbZero => .dec .ecb (some .zero)
  | .decEcbBit => .dec .ecb (some .bit)
  | .decEcbPkcs7 => .dec .ecb (some .pkcs7)
  | .decEcbPkcs5 => .dec .ecb (some .pkcs5)
  | .decEcbX923 => .dec .ecb (some .x923)
  | .decEcbIso7816 => .dec .ecb (some .iso7816)
  | .decEcbIso10126 => .dec .ecb (some .iso10126)
  | .encCbcNone => .enc .cbc none
  | .encCbcZero => .enc .cbc (some .zero)
  | .encCbcBit => .enc .cbc (some .bit)
  | .encCbcPkcs7 => .enc .cbc (some .pkcs7)
  | .encCbcPkcs5 => .enc .cbc (some .pkcs5)
  | .encCbcX923 => .enc .cbc (some .x923)
  | .encCbcIso7816 => .enc .cbc (some .iso7816)
  | .encCbcIso10126 => .enc .cbc (some .iso10126)
  | .decCbcNone => .dec .cbc none
  | .decCbcZero => .dec .cbc (some .zero)
  | .decCbcBit => .dec .cbc (some .bit)
  | .decCbcPkcs7 => .dec .cbc (some .pkcs7)
  | .decCbcPkcs5 => .dec .cbc (some .pkcs5)
  | .decCbcX923 => .dec .cbc (some .x923)
  | .decCbcIso7816 => .dec .cbc (some .iso7816)
  | .decCbcIso10126 => .dec .cbc (some .iso10126)
  | .encCfbNone => .enc .cfb none
  | .encCfbZero => .enc .cfb (some .zero)
  | .encCfbBit => .enc .cfb (some .bit)
  | .encCfbPkcs7 => .enc .cfb (some .pkcs7)
  | .encCfbPkcs5 => .enc .cfb (some .pkcs5)
  | .encCfbX923 => .enc .cfb (some .x923)
  | .encCfbIso7816 => .enc .cfb (some .iso7816)
  | .encCfbIso10126 => .enc .cfb (some .iso10126)
  | .decCfbNone => .dec .cfb none
  | .decCfbZero => .dec .cfb (some .zero)
  | .decCfbBit => .dec .cfb (some .bit)
  | .decCfbPkcs7 => .dec .cfb (some .pkcs7)
  | .decCfbPkcs5 => .dec .cfb (some .pkcs5)
  | .decCfbX923 => .dec .cfb (some .x923)
  | .decCfbIso7816 => .dec .cfb (some .iso7816)
  | .decCfbIso10126 => .dec .cfb (some .iso10126)
  | .encOfbNone => .enc .ofb none
  | .encOfbZero => .enc .ofb (some .zero)
  | .encOfbBit => .enc .ofb (some .bit)
  | .encOfbPkcs7 => .enc .ofb (some .pkcs7)
  | .encOfbPkcs5 => .enc .ofb (some .pkcs5)
  | .encOfbX923 => .enc .ofb (some .x923)
  | .encOfbIso7816 => .enc .ofb (some .iso7816)
  | .encOfbIso10126 => .enc .ofb (some .iso10126)
  | .decOfbNone => .dec .ofb none
  | .decOfbZero => .dec .ofb (some .zero)
  | .decOfbBit => .dec .ofb (some .bit)
  | .decOfbPkcs7 => .dec .ofb (some .pkcs7)
  | .decOfbPkcs5 => .dec .ofb (some .pkcs5)
  | .decOfbX923 => .dec .ofb (some .x923)
  | .decOfbIso7816 => .dec .ofb (some .iso7816)
  | .decOfbIso10126 => .dec .ofb (some .iso10126)
  | .encCtrNone => .enc .ctr none
  | .encCtrZero => .enc .ctr (some .zero)
  | .encCtrBit => .enc .ctr (some .bit)
  | .encCtrPkcs7 => .enc .ctr (some .pkcs7)
  | .encCtrPkcs5 => .enc .ctr (some .pkcs5)
  | .encCtrX923 => .enc .ctr (some .x923)
  | .encCtrIso7816 => .enc .ctr (some .iso7816)
  | .encCtrIso10126 => .enc .ctr (some .iso10126)
  | .decCtrNone => .dec .ctr none
  | .decCtrZero => .dec .ctr (some .zero)
  | .decCtrBit => .dec .ctr (some .bit)
  | .decCtrPkcs7 => .dec .ctr (some .pkcs7)
  | .decCtrPkcs5 => .dec .ctr (some .pkcs5)
  | .decCtrX923 => .dec .ctr (some .x923)
  | .decCtrIso7816 => .dec .ctr (some .iso7816)
  | .decCtrIso10126 => .dec .ctr (some .iso10126)
  | .encGcmStd => .encGcm .std
  | .decGcmStd => .decGcm .std
  | .encGcmNonce => .encGcm .nonce
  | .decGcmNonce => .decGcm .nonce
  | .encGcmTag => .encGcm .tag
  | .decGcmTag => .decGcm .tag

/-- The command that fields select (30_encoding.md R80). -/
def Command.instr : Command → Instr
  | .pad .zero => .padZero
  | .pad .bit => .padBit
  | .pad .pkcs7 => .padPkcs7
  | .pad .pkcs5 => .padPkcs5
  | .pad .x923 => .padX923
  | .pad .iso7816 => .padIso7816
  | .pad .iso10126 => .padIso10126
  | .unpad .zero => .unpadZero
  | .unpad .bit => .unpadBit
  | .unpad .pkcs7 => .unpadPkcs7
  | .unpad .pkcs5 => .unpadPkcs5
  | .unpad .x923 => .unpadX923
  | .unpad .iso7816 => .unpadIso7816
  | .unpad .iso10126 => .unpadIso10126
  | .val .keysize => .valKeysize
  | .val .blocksize => .valBlocksize
  | .val .ivsize => .valIvsize
  | .val .iveq => .valIveq
  | .val .ciphertext => .valCiphertext
  | .val .stdnonce => .valStdnonce
  | .val .noncesize => .valNoncesize
  | .val .tagsize => .valTagsize
  | .val .datasize => .valDatasize
  | .val .empty => .valEmpty
  | .enc .ecb none => .encEcbNone
  | .enc .ecb (some .zero) => .encEcbZero
  | .enc .ecb (some .bit) => .encEcbBit
  | .enc .ecb (some .pkcs7) => .encEcbPkcs7
  | .enc .ecb (some .pkcs5) => .encEcbPkcs5
  | .enc .ecb (some .x923) => .encEcbX923
  | .enc .ecb (some .iso7816) => .encEcbIso7816
  | .enc .ecb (some .iso10126) => .encEcbIso10126
  | .dec .ecb none => .decEcbNone
  | .dec .ecb (some .zero) => .decEcbZero
  | .dec .ecb (some .bit) => .decEcbBit
  | .dec .ecb (some .pkcs7) => .decEcbPkcs7
  | .dec .ecb (some .pkcs5) => .decEcbPkcs5
  | .dec .ecb (some .x923) => .decEcbX923
  | .dec .ecb (some .iso7816) => .decEcbIso7816
  | .dec .ecb (some .iso10126) => .decEcbIso10126
  | .enc .cbc none => .encCbcNone
  | .enc .cbc (some .zero) => .encCbcZero
  | .enc .cbc (some .bit) => .encCbcBit
  | .enc .cbc (some .pkcs7) => .encCbcPkcs7
  | .enc .cbc (some .pkcs5) => .encCbcPkcs5
  | .enc .cbc (some .x923) => .encCbcX923
  | .enc .cbc (some .iso7816) => .encCbcIso7816
  | .enc .cbc (some .iso10126) => .encCbcIso10126
  | .dec .cbc none => .decCbcNone
  | .dec .cbc (some .zero) => .decCbcZero
  | .dec .cbc (some .bit) => .decCbcBit
  | .dec .cbc (some .pkcs7) => .decCbcPkcs7
  | .dec .cbc (some .pkcs5) => .decCbcPkcs5
  | .dec .cbc (some .x923) => .decCbcX923
  | .dec .cbc (some .iso7816) => .decCbcIso7816
  | .dec .cbc (some .iso10126) => .decCbcIso10126
  | .enc .cfb none => .encCfbNone
  | .enc .cfb (some .zero) => .encCfbZero
  | .enc .cfb (some .bit) => .encCfbBit
  | .enc .cfb (some .pkcs7) => .encCfbPkcs7
  | .enc .cfb (some .pkcs5) => .encCfbPkcs5
  | .enc .cfb (some .x923) => .encCfbX923
  | .enc .cfb (some .iso7816) => .encCfbIso7816
  | .enc .cfb (some .iso10126) => .encCfbIso10126
  | .dec .cfb none => .decCfbNone
  | .dec .cfb (some .zero) => .decCfbZero
  | .dec .cfb (some .bit) => .decCfbBit
  | .dec .cfb (some .pkcs7) => .decCfbPkcs7
  | .dec .cfb (some .pkcs5) => .decCfbPkcs5
  | .dec .cfb (some .x923) => .decCfbX923
  | .dec .cfb (some .iso7816) => .decCfbIso7816
  | .dec .cfb (some .iso10126) => .decCfbIso10126
  | .enc .ofb none => .encOfbNone
  | .enc .ofb (some .zero) => .encOfbZero
  | .enc .ofb (some .bit) => .encOfbBit
  | .enc .ofb (some .pkcs7) => .encOfbPkcs7
  | .enc .ofb (some .pkcs5) => .encOfbPkcs5
  | .enc .ofb (some .x923) => .encOfbX923
  | .enc .ofb (some .iso7816) => .encOfbIso7816
  | .enc .ofb (some .iso10126) => .encOfbIso10126
  | .dec .ofb none => .decOfbNone
  | .dec .ofb (some .zero) => .decOfbZero
  | .dec .ofb (some .bit) => .decOfbBit
  | .dec .ofb (some .pkcs7) => .decOfbPkcs7
  | .dec .ofb (some .pkcs5) => .decOfbPkcs5
  | .dec .ofb (some .x923) => .decOfbX923
  | .dec .ofb (some .iso7816) => .decOfbIso7816
  | .dec .ofb (some .iso10126) => .decOfbIso10126
  | .enc .ctr none => .encCtrNone
  | .enc .ctr (some .zero) => .encCtrZero
  | .enc .ctr (some .bit) => .encCtrBit
  | .enc .ctr (some .pkcs7) => .encCtrPkcs7
  | .enc .ctr (some .pkcs5) => .encCtrPkcs5
  | .enc .ctr (some .x923) => .encCtrX923
  | .enc .ctr (some .iso7816) => .encCtrIso7816
  | .enc .ctr (some .iso10126) => .encCtrIso10126
  | .dec .ctr none => .decCtrNone
  | .dec .ctr (some .zero) => .decCtrZero
  | .dec .ctr (some .bit) => .decCtrBit
  | .dec .ctr (some .pkcs7) => .decCtrPkcs7
  | .dec .ctr (some .pkcs5) => .decCtrPkcs5
  | .dec .ctr (some .x923) => .decCtrX923
  | .dec .ctr (some .iso7816) => .decCtrIso7816
  | .dec .ctr (some .iso10126) => .decCtrIso10126
  | .encGcm .std => .encGcmStd
  | .decGcm .std => .decGcmStd
  | .encGcm .nonce => .encGcmNonce
  | .decGcm .nonce => .decGcmNonce
  | .encGcm .tag => .encGcmTag
  | .decGcm .tag => .decGcmTag

/-- The scheme's name in a mnemonic (30_encoding.md R83). -/
def Scheme.name : Scheme → String
  | .zero => "ZERO" | .bit => "BIT" | .pkcs7 => "PKCS7" | .pkcs5 => "PKCS5" | .x923 => "X923"
  | .iso7816 => "ISO7816" | .iso10126 => "ISO10126"

/-- The name of a padding choice of ENC and DEC (30_encoding.md R83, `pscheme`). -/
def Scheme.optName : Option Scheme → String
  | none => "NONE"
  | some s => s.name

/-- The diagnostic name the source gives a scheme: only that of PKCS7 is in the source
(30_encoding.md R86). -/
def Scheme.diagnosticName : Scheme → Option String
  | .pkcs7 => some "PKCS7Padding"
  | .zero | .bit | .pkcs5 | .x923 | .iso7816 | .iso10126 => none

/-- The mode's name in a mnemonic (30_encoding.md R83, `bmode`). -/
def BMode.name : BMode → String
  | .ecb => "ECB" | .cbc => "CBC" | .cfb => "CFB" | .ofb => "OFB" | .ctr => "CTR"

/-- The GCM variant's name in a mnemonic (30_encoding.md R83, `gvar`). -/
def GVar.name : GVar → String
  | .std => "STD" | .nonce => "NONCE" | .tag => "TAG"

/-- The predicate's name in a mnemonic (30_encoding.md R83, `pred`). -/
def Pred.name : Pred → String
  | .keysize => "KEYSIZE" | .blocksize => "BLOCKSIZE" | .ivsize => "IVSIZE" | .iveq => "IVEQ"
  | .ciphertext => "CIPHERTEXT" | .stdnonce => "STDNONCE" | .noncesize => "NONCESIZE"
  | .tagsize => "TAGSIZE" | .datasize => "DATASIZE" | .empty => "EMPTY"

/-- A command's mnemonic (30_encoding.md R83). -/
def Command.mnemonic : Command → String
  | .pad s => "PAD." ++ s.name
  | .unpad s => "UNPAD." ++ s.name
  | .val p => "VAL." ++ p.name
  | .enc m s => "ENC." ++ m.name ++ "." ++ Scheme.optName s
  | .dec m s => "DEC." ++ m.name ++ "." ++ Scheme.optName s
  | .encGcm v => "ENC.GCM." ++ v.name
  | .decGcm v => "DEC.GCM." ++ v.name

/-- A command's mnemonic, as the opcode table spells it (30_encoding.md R83). -/
def Instr.mnemonic (i : Instr) : String := i.command.mnemonic

/-- The pseudo-commands (30_encoding.md R84). -/
inductive Pseudo where
  | enc (m : BMode)
  | dec (m : BMode)
  | encGcm
  | decGcm
  deriving DecidableEq, Repr

/-- What a pseudo-command expands to (30_encoding.md R84). -/
def Pseudo.expand : Pseudo → Instr
  | .enc m => (Command.enc m none).instr
  | .dec m => (Command.dec m none).instr
  | .encGcm => .encGcmStd
  | .decGcm => .decGcmStd

end Sys2Proof
end

