-- ==== Sys2Proof/WellFormed.lean ====
section
/-! DEFINITION. The format CMD32 and which field values are legal (30_encoding.md R70 to R77). -/

namespace Sys2Proof

/-- The fields of a command word, least significant first (30_encoding.md R70). -/
structure Fields where
  op     : BitVec 4
  scheme : BitVec 4
  mode   : BitVec 4
  gvar   : BitVec 2
  resLo  : BitVec 2
  vsel   : BitVec 4
  resHi  : BitVec 12
  deriving DecidableEq, Repr

/-- The SCHEME value of a scheme (30_encoding.md R72). -/
def Scheme.code : Scheme → BitVec 4
  | .zero => 1 | .bit => 2 | .pkcs7 => 3 | .pkcs5 => 4 | .x923 => 5 | .iso7816 => 6 | .iso10126 => 7

/-- The SCHEME value of a padding choice; NONE is 0 (30_encoding.md R72). -/
def Scheme.optCode : Option Scheme → BitVec 4
  | none => 0
  | some s => s.code

/-- The MODE value of a mode other than GCM, whose value is 5 (30_encoding.md R73). -/
def BMode.code : BMode → BitVec 4
  | .ecb => 0 | .cbc => 1 | .cfb => 2 | .ofb => 3 | .ctr => 4

/-- The GVAR value of a GCM variant (30_encoding.md R74). -/
def GVar.code : GVar → BitVec 2
  | .std => 0 | .nonce => 1 | .tag => 2

/-- The VSEL value of a predicate (30_encoding.md R75). -/
def Pred.code : Pred → BitVec 4
  | .keysize => 0 | .blocksize => 1 | .ivsize => 2 | .iveq => 3 | .ciphertext => 4 | .stdnonce => 5
  | .noncesize => 6 | .tagsize => 7 | .datasize => 8 | .empty => 9

/-- The field values of a command; a field the command does not use is 0 (30_encoding.md R71 to R77). -/
def Command.fields : Command → Fields
  | .pad s => ⟨1, s.code, 0, 0, 0, 0, 0⟩
  | .unpad s => ⟨2, s.code, 0, 0, 0, 0, 0⟩
  | .val p => ⟨3, 0, 0, 0, 0, p.code, 0⟩
  | .enc m s => ⟨4, Scheme.optCode s, m.code, 0, 0, 0, 0⟩
  | .dec m s => ⟨5, Scheme.optCode s, m.code, 0, 0, 0, 0⟩
  | .encGcm v => ⟨4, 0, 5, v.code, 0, 0, 0⟩
  | .decGcm v => ⟨5, 0, 5, v.code, 0, 0, 0⟩

/-- The reserved bits are 0 (30_encoding.md R76). -/
def Fields.reservedZero (f : Fields) : Bool := f.resLo.toNat == 0 && f.resHi.toNat == 0

/-- PAD and UNPAD: a scheme other than NONE, nothing else used (30_encoding.md R77, first line). -/
def Fields.legalPad (f : Fields) : Bool :=
  (f.op.toNat == 1 || f.op.toNat == 2) && decide (1 ≤ f.scheme.toNat) && decide (f.scheme.toNat ≤ 7) &&
    f.mode.toNat == 0 && f.gvar.toNat == 0 && f.vsel.toNat == 0

/-- VAL: a predicate, nothing else used (30_encoding.md R77, second line). -/
def Fields.legalVal (f : Fields) : Bool :=
  f.op.toNat == 3 && f.scheme.toNat == 0 && f.mode.toNat == 0 && f.gvar.toNat == 0 &&
    decide (f.vsel.toNat ≤ 9)

/-- Non-GCM ENC and DEC (30_encoding.md R77, third line). -/
def Fields.legalBlk (f : Fields) : Bool :=
  (f.op.toNat == 4 || f.op.toNat == 5) && decide (f.mode.toNat ≤ 4) && decide (f.scheme.toNat ≤ 7) &&
    f.gvar.toNat == 0 && f.vsel.toNat == 0

/-- GCM ENC and DEC take no scheme (30_encoding.md R77, fourth line). -/
def Fields.legalGcm (f : Fields) : Bool :=
  (f.op.toNat == 4 || f.op.toNat == 5) && f.mode.toNat == 5 && f.scheme.toNat == 0 &&
    decide (f.gvar.toNat ≤ 2) && f.vsel.toNat == 0

/-- `Legal` of 30_encoding.md R77, on the fields of a word. -/
def Fields.legal (f : Fields) : Bool :=
  f.reservedZero && (f.legalPad || f.legalVal || f.legalBlk || f.legalGcm)

/-- A command is well formed when its fields are legal (30_encoding.md R77). -/
def Instr.wf (i : Instr) : Bool := i.command.fields.legal

end Sys2Proof
end

