-- ==== Sys2Proof/Decode.lean ====
section
/-! DEFINITION. Decoding a command word and encoding a command (30_encoding.md R70 to R82). Both are total;
a word that is no command is rejected by a name that says which check it fails first. -/

namespace Sys2Proof

/-- Why a word is no legal command (30_encoding.md R76, R77). -/
inductive DecodeError where
  | reservedBits      -- bits 15:14 or 31:20 not 0
  | operation         -- OP is none of PAD, UNPAD, VAL, ENC, DEC
  | scheme            -- SCHEME is not one the operation takes
  | mode              -- MODE is not one the operation takes
  | gvar              -- GVAR is not one the operation takes
  | vsel              -- VSEL is not one the operation takes
  deriving DecidableEq, Repr

/-- The fields of a word (30_encoding.md R70). -/
def Fields.ofWord (w : Word) : Fields where
  op     := w.extractLsb' 0 4
  scheme := w.extractLsb' 4 4
  mode   := w.extractLsb' 8 4
  gvar   := w.extractLsb' 12 2
  resLo  := w.extractLsb' 14 2
  vsel   := w.extractLsb' 16 4
  resHi  := w.extractLsb' 20 12

/-- The scheme a SCHEME value selects: `none` where the value is illegal, `some none` for NONE
(30_encoding.md R72). -/
def Scheme.ofCode (c : BitVec 4) : Option (Option Scheme) :=
  match c.toNat with
  | 0 => some none
  | 1 => some (some .zero)
  | 2 => some (some .bit)
  | 3 => some (some .pkcs7)
  | 4 => some (some .pkcs5)
  | 5 => some (some .x923)
  | 6 => some (some .iso7816)
  | 7 => some (some .iso10126)
  | _ => none

/-- The mode a MODE value selects: `none` where the value is illegal, `some none` for GCM
(30_encoding.md R73). -/
def BMode.ofCode (c : BitVec 4) : Option (Option BMode) :=
  match c.toNat with
  | 0 => some (some .ecb)
  | 1 => some (some .cbc)
  | 2 => some (some .cfb)
  | 3 => some (some .ofb)
  | 4 => some (some .ctr)
  | 5 => some none
  | _ => none

/-- The variant a GVAR value selects (30_encoding.md R74). -/
def GVar.ofCode (c : BitVec 2) : Option GVar :=
  match c.toNat with
  | 0 => some .std
  | 1 => some .nonce
  | 2 => some .tag
  | _ => none

/-- The predicate a VSEL value selects (30_encoding.md R75). -/
def Pred.ofCode (c : BitVec 4) : Option Pred :=
  match c.toNat with
  | 0 => some .keysize
  | 1 => some .blocksize
  | 2 => some .ivsize
  | 3 => some .iveq
  | 4 => some .ciphertext
  | 5 => some .stdnonce
  | 6 => some .noncesize
  | 7 => some .tagsize
  | 8 => some .datasize
  | 9 => some .empty
  | _ => none

/-- PAD and UNPAD words: a scheme other than NONE (30_encoding.md R77). -/
def Fields.padCommand (f : Fields) (k : Scheme → Command) : Except DecodeError Command :=
  if f.mode ≠ 0 then .error .mode
  else if f.gvar ≠ 0 then .error .gvar
  else if f.vsel ≠ 0 then .error .vsel
  else match Scheme.ofCode f.scheme with
    | some (some s) => .ok (k s)
    | _ => .error .scheme

/-- VAL words (30_encoding.md R77). -/
def Fields.valCommand (f : Fields) : Except DecodeError Command :=
  if f.scheme ≠ 0 then .error .scheme
  else if f.mode ≠ 0 then .error .mode
  else if f.gvar ≠ 0 then .error .gvar
  else match Pred.ofCode f.vsel with
    | some p => .ok (.val p)
    | none => .error .vsel

/-- ENC and DEC words: GCM takes a variant and no scheme, every other mode a scheme or NONE and no
variant (30_encoding.md R77). -/
def Fields.modeCommand (f : Fields) (k : BMode → Option Scheme → Command) (kGcm : GVar → Command) :
    Except DecodeError Command :=
  if f.vsel ≠ 0 then .error .vsel
  else match BMode.ofCode f.mode with
    | none => .error .mode
    | some none =>
      if f.scheme ≠ 0 then .error .scheme
      else match GVar.ofCode f.gvar with
        | some v => .ok (kGcm v)
        | none => .error .gvar
    | some (some m) =>
      if f.gvar ≠ 0 then .error .gvar
      else match Scheme.ofCode f.scheme with
        | some s => .ok (k m s)
        | none => .error .scheme

/-- The command that fields select (30_encoding.md R71, R77). -/
def Fields.command (f : Fields) : Except DecodeError Command :=
  if f.resLo ≠ 0 ∨ f.resHi ≠ 0 then .error .reservedBits
  else match f.op.toNat with
    | 1 => f.padCommand .pad
    | 2 => f.padCommand .unpad
    | 3 => f.valCommand
    | 4 => f.modeCommand .enc .encGcm
    | 5 => f.modeCommand .dec .decGcm
    | _ => .error .operation

/-- The decoder: total on every 32-bit word (30_encoding.md R81). -/
def decode (w : Word) : Except DecodeError Instr :=
  match (Fields.ofWord w).command with
  | .ok c => .ok c.instr
  | .error e => .error e

/-- The word that holds the fields (30_encoding.md R70). -/
def Fields.toWord (f : Fields) : Word :=
  f.resHi ++ f.vsel ++ f.resLo ++ f.gvar ++ f.mode ++ f.scheme ++ f.op

/-- The encoder: the word of a command (30_encoding.md R80). -/
def encode (i : Instr) : Word := i.command.fields.toWord

/-- The command the decoder reads from a word of `nbits` bits numbered as spec/opcode_table.json numbers
them; bits above `nbits` are 0. Every command is one 32-bit word (30_encoding.md R82), so there is no
second word to lay out. -/
def decodeTableWord (nbits w : Nat) : Option Instr :=
  match decode (BitVec.ofNat 32 (w % 2 ^ nbits)) with
  | .ok i => some i
  | .error _ => none

end Sys2Proof
end

