-- ==== Sys2Proof/Config.lean ====
section
/-! DEFINITION. What an implementation of PADMODE fixes (00_scope.md R8, R9) and the free values.
The opaque constants have no body: no proof can see a value of one. -/

namespace Sys2Proof.Config

/-- The cipher collaborator's block size in bytes, CIPHER_BLOCK (00_scope.md R8, 42_modes.md R180). -/
abbrev cipherBlock : Nat := 16

/-- The parameters of one PADMODE instance (00_scope.md R9): the capacity BUF_CAP of each buffer, the
bus address BASE of offset 0, and whether the bus it sits on has an error response (20_memory.md R56).
A State carries its own, and no step changes them. -/
structure Params where
  bufCap    : Nat
  base      : Nat
  busErrors : Bool
  deriving DecidableEq, Repr

/-- BUF_CAP is left open between 64 and 2^28 (00_scope.md R9, 92_eei_decisions.md D54): this is how far
above 64 it lies. Log 7. -/
opaque bufCapAbove64 : Fin (268435392 + 1)

/-- BASE is the platform's (00_scope.md R9, 92_eei_decisions.md D55). Log 7. -/
opaque base : Nat

/-- Whether the platform's bus has an error response (20_memory.md R56). Log 8. -/
opaque busErrors : Bool

/-- The parameters of the machine that comes out of power-on. Log 7, log 8. -/
def params : Params := ⟨64 + bufCapAbove64.val, base, busErrors⟩

/-- The contents of an input buffer byte that the host has not written since the last reset: a draw for
each reset (`epoch`) and each offset, fixed until the host writes the byte (70_reset_and_hazards.md
R272). Log 9. -/
opaque powerOnByte : (epoch : Nat) → (offset : Nat) → Byte

/-- What the n-th read of a result while Busy returns in the bits of the result
(70_reset_and_hazards.md R275): a draw. Log 10. -/
opaque freeWord : (draw : Nat) → Word

end Sys2Proof.Config
end

