-- ==== Sys2Proof/Machine/State.lean ====
section
/-! DEFINITION. The state of PADMODE (10_state.md), as plain data, and its reset. -/

namespace Sys2Proof.Machine

/-- The status codes of STATUS.ERR (60_exceptions.md R241), in the order of their numbers. -/
inductive Code where
  | ok
  | emptyData
  | invalidBlockSize
  | invalidKeySize
  | invalidIvSize
  | ivSizeMismatch
  | invalidData
  | invalidCiphertext
  | invalidNonceSize
  | invalidTagSize
  | dataTooLarge
  | authenticationFailed
  | entropyError
  | cipherInitFailed
  | illegalCommand
  | capacityExceeded
  deriving DecidableEq, Repr

/-- Byte storage: (offset, byte) pairs in one canonical form, offsets strictly rising
(`Memory.wf`, Machine/Ops.lean). An offset that is not listed holds no written byte. The offset is the
32-bit offset from BASE (20_memory.md R50, R51), so the five buffers are five ranges of it. -/
abbrev Memory := List Host.Cell

/-- The five byte buffers (10_state.md R34). -/
inductive Buf where
  | input | key | iv | aad | output
  deriving DecidableEq, Repr

/-- The requests PADMODE makes of its collaborators (60_exceptions.md R251). A block request carries the
key its cipher was constructed with, a seal or open request the tag size of its construction. -/
inductive Request where
  | cipherInit (key : Bytes)
  | encryptBlock (key block : Bytes)
  | decryptBlock (key block : Bytes)
  | aeadInit (nonceSize tagSize : Nat)
  | sealData (tagSize : Nat) (key nonce plaintext aad : Bytes)
  | openData (tagSize : Nat) (key nonce ciphertext aad : Bytes)
  | rngFill (count : Nat)
  deriving DecidableEq, Repr

/-- The answers a collaborator can give (60_exceptions.md R251): `ok` to a construction, `bytes` to a
request for bytes, `fail` to any request but a block request. -/
inductive Answer where
  | ok
  | bytes (b : Bytes)
  | fail
  deriving DecidableEq, Repr

/-- A request that waits for its answer, with the number it was issued under (10_state.md R41). The
number is the model's: an answer names it, so that the answer to a request that a reset abandoned is
not taken for the answer to a later one (70_reset_and_hazards.md R271). Log 5. -/
structure Outstanding where
  ticket  : Nat
  request : Request
  deriving DecidableEq, Repr

/-- A request and the answer it got. -/
structure Answered where
  request : Request
  answer  : Answer
  deriving DecidableEq, Repr

/-- What a seal and an open share: the tag size, the key, the nonce and the additional data
(42_modes.md R208). -/
structure SealContext where
  tagSize : Nat
  key     : Bytes
  nonce   : Bytes
  aad     : Bytes
  deriving DecidableEq, Repr

/-- The width of a bus access (20_memory.md R53). `wide` is any access wider than 32 bits (R56). -/
inductive Width where
  | byte | half | word | wide
  deriving DecidableEq, Repr

/-- What a bus access does; a write carries its datum, of which an access narrower than 32 bits uses the
low bits. -/
inductive AccessKind where
  | read
  | write (data : Word)
  deriving DecidableEq, Repr

/-- One bus access by a host (10_state.md R20, 20_memory.md R53), at a bus address. -/
structure Access where
  address : Nat
  width   : Width
  kind    : AccessKind
  deriving DecidableEq, Repr

/-- What a bus access returns: the datum of a read, the completion of a write, or the bus error response
(20_memory.md R56). Log 3. -/
inductive Reply where
  | data (value : Word)
  | written
  | busError
  deriving DecidableEq, Repr

/-- One move of one agent (10_state.md R20): a host's bus access, a step of the sequencer, the arrival of
a collaborator's answer to the request of that number, or the reset input. Log 2. -/
inductive Turn where
  | host (access : Access)
  | sequencer
  | collaborator (ticket : Nat) (answer : Answer)
  | reset
  deriving DecidableEq, Repr

/-- How a step can stop with a fault. -/
inductive Fault where
  /-- Raised by a bus access that breaks 20_memory.md R53 on a bus that has no error response: a fault of
  the host program, not a transition of PADMODE (20_memory.md R56). Safe: nothing is claimed of a
  machine whose host does this. -/
  | hostAccess
  deriving DecidableEq, Repr

/-- How a step can decline to continue. -/
inductive Refusal where
  /-- Raised by exec's arm of an instruction that has no meaning yet. Safe. -/
  | notModelled (mnemonic : String)
  /-- Raised when a collaborator answers with something its laws exclude (42_modes.md R201, R205, R208, R209):
  the wrong kind of answer, the wrong length, or an answer at odds with one it has given before
  (93_implementation_defined.md U24). Safe: the spec has a model assume the laws. Log 6. -/
  | collaboratorBrokeLaw
  deriving DecidableEq, Repr

/-- The state of PADMODE (10_state.md R44). The fields up to `pending` are the spec's; those after it
are the model's own (INVENTORY.md, State). -/
structure State where
  /-- BUF_CAP (register BUFCAP, 10_state.md R28), BASE and the bus (00_scope.md R9). -/
  params     : Config.Params
  /-- CMD, the last accepted command word (10_state.md R23); while Busy, the latched word (R40). -/
  cmd        : Word
  /-- STATUS.BUSY, the sequencer phase (10_state.md R24, R40). -/
  busy       : Bool
  /-- STATUS.DONE (10_state.md R24). -/
  done       : Bool
  /-- STATUS.BUSYWR (10_state.md R24). -/
  busywr     : Bool
  /-- STATUS.ERR (10_state.md R24). -/
  err        : Code
  /-- CTRL.IE (10_state.md R25). -/
  ie         : Bool
  /-- BLKSZ.BLKSZ (10_state.md R26). -/
  blksz      : Byte
  /-- TAGSZ.TAGSZ (10_state.md R27). -/
  tagsz      : Byte
  /-- ERRARG (10_state.md R29). -/
  errarg     : DWord
  /-- ARG0 (10_state.md R30). -/
  arg0       : DWord
  /-- ARG1 (10_state.md R30). -/
  arg1       : DWord
  /-- IN_LEN (10_state.md R31). -/
  inLen      : DWord
  /-- KEY_LEN (10_state.md R31). -/
  keyLen     : DWord
  /-- IV_LEN (10_state.md R31). -/
  ivLen      : DWord
  /-- AAD_LEN (10_state.md R31). -/
  aadLen     : DWord
  /-- OUT_LEN (10_state.md R32). -/
  outLen     : DWord
  /-- The storage of the five buffers (10_state.md R34). -/
  mem        : Memory
  /-- The outstanding collaborator request (10_state.md R41). -/
  pending    : Option Outstanding
  /-- The answers the running command has had so far. Log 4. -/
  answers    : List Answered
  /-- Every answer the collaborators have given since power-on, oldest first: what their laws bind their
  next answer to. It is the collaborators', and a reset keeps it. Log 18. -/
  transcript : List Answered
  /-- Which agent moves next; with nothing listed, the sequencer does. Log 2. -/
  turns      : List Turn
  /-- What the last bus access to PADMODE returned. Log 3. -/
  reply      : Option Reply
  /-- How many free values reads while Busy have drawn. Log 10. -/
  draws      : Nat
  /-- How many resets there have been: each draws new buffer contents. Log 9. -/
  epoch      : Nat
  /-- How many requests have been issued. Log 5. -/
  tickets    : Nat
  deriving DecidableEq, Repr

/-- The state right after reset (70_reset_and_hazards.md R272): Idle, every register at its reset value,
no byte of a buffer written, no outstanding request. The model's own fields are at log 2, 3, 4, 5, 9, 10, 18. -/
def State.reset : State where
  params     := Config.params
  cmd        := 0
  busy       := false
  done       := false
  busywr     := false
  err        := .ok
  ie         := false
  blksz      := 0
  tagsz      := 0
  errarg     := 0
  arg0       := 0
  arg1       := 0
  inLen      := 0
  keyLen     := 0
  ivLen      := 0
  aadLen     := 0
  outLen     := 0
  mem        := []
  pending    := none
  answers    := []
  transcript := []
  turns      := []
  reply      := none
  draws      := 0
  epoch      := 0
  tickets    := 0

end Sys2Proof.Machine
end

