-- ==== Sys2Proof/Machine/Ops.lean ====
section
/-! DEFINITION. The named operations on memory, buffers, collaborator requests and the outcome of a
command. `finish` and `raiseErr` are PADMODE's only way to end a command (00_scope.md R14): there are no
traps (60_exceptions.md R240), so ending with an error is what taking an exception is here. -/

namespace Sys2Proof.Machine

/-! ### Byte storage -/

/-- The byte written at an offset, if one is. -/
def Memory.read : Memory → Nat → Option Byte
  | [], _ => none
  | (a', b) :: m, a => if a' = a then some b else Memory.read m a

/-- Write one byte, keeping the offsets rising. -/
def Memory.write : Memory → Nat → Byte → Memory
  | [], a, b => [(a, b)]
  | (a', b') :: m, a, b =>
    if a < a' then (a, b) :: (a', b') :: m
    else if a = a' then (a, b) :: m
    else (a', b') :: Memory.write m a b

/-- Write a byte sequence from an offset on. -/
def Memory.writeBytes : Memory → Nat → Bytes → Memory
  | m, _, [] => m
  | m, a, b :: bs => Memory.writeBytes (Memory.write m a b) (a + 1) bs

/-- The canonical form: offsets strictly rising. An offset that is not listed reads as no value, so no
entry can equal what an unlisted offset reads as. -/
def Memory.wf : Memory → Bool
  | [] => true
  | [_] => true
  | c :: c' :: m => decide (c.1 < c'.1) && Memory.wf (c' :: m)

/-! ### Buffers -/

/-- The region number of a buffer (20_memory.md R51). -/
def Buf.region : Buf → Nat
  | .input => 1 | .key => 2 | .iv => 3 | .aad => 4 | .output => 5

/-- The offset of a buffer's byte 0 from BASE (20_memory.md R51). -/
def Buf.base (b : Buf) : Nat := b.region * 2 ^ 28

/-- The byte the storage holds at an offset: the byte written there since the last reset, or, where none
was, the draw of that reset (70_reset_and_hazards.md R272). Log 9. -/
def State.byteAt (s : State) (a : Nat) : Byte :=
  match s.mem.read a with
  | some b => b
  | none => Config.powerOnByte s.epoch a

/-- The first `n` bytes of a buffer (10_state.md R39). -/
def State.view (s : State) (b : Buf) (n : Nat) : Bytes :=
  (List.range n).map fun k => s.byteAt (b.base + k)

/-- OUTBUF byte `k` as it reads while Idle: output byte `k` of the last completed command below OUT_LEN,
0x00 at and above it (10_state.md R37). -/
def State.outByte (s : State) (k : Nat) : Byte :=
  if k < s.outLen.toNat then s.byteAt (Buf.base .output + k) else 0

/-! ### The run of a command -/

/-- How a command's pseudocode stops before its `finish`: it raises an error (00_scope.md R14), or it
reaches a request that has no answer yet (10_state.md R41). -/
inductive Halt where
  | err (code : Code) (arg : Nat)
  | wait (request : Request)
  deriving DecidableEq, Repr

/-- A piece of a command's pseudocode (00_scope.md R14): a value, or the reason it stops. -/
abbrev Cmd := Except Halt

/-- `raise Err(code, arg)` (00_scope.md R14). -/
def raise {α : Type} (code : Code) (arg : Nat) : Cmd α := .error (.err code arg)

/-- Is this the kind and the length of an answer to this request (60_exceptions.md R251; 42_modes.md R208,
R209)? Log 6. -/
def Request.fits : Request → Answer → Bool
  | .cipherInit _, .ok => true
  | .cipherInit _, .fail => true
  | .encryptBlock _ _, .bytes y => y.length == Config.cipherBlock
  | .decryptBlock _ _, .bytes y => y.length == Config.cipherBlock
  | .aeadInit _ _, .ok => true
  | .aeadInit _ _, .fail => true
  | .sealData t _ _ p _, .bytes y => y.length == p.length + t
  | .openData t _ _ c _, .bytes y => y.length + t == c.length
  | .openData _ _ _ _ _, .fail => true
  | .rngFill k, .bytes y => y.length == k
  | .rngFill _, .fail => true
  | _, _ => false

/-! ### The collaborators' laws

A law binds an answer to the answers given before, in this command or another: it is a relation between two
answered requests (42_modes.md R208, R209). Log 6. -/

/-- In how many bits two byte sequences differ, over their common length. -/
def bitsApart (a b : Bytes) : Nat :=
  (List.zipWith (fun x y => (List.range 8).countP fun i => (x ^^^ y).getLsbD i) a b).sum

/-- One is the other with one bit flipped (42_modes.md R208, law 4). -/
def oneBitApart (a b : Bytes) : Bool := a.length == b.length && bitsApart a b == 1

/-- What a block answer says of the cipher: under this key, this plaintext block goes with this ciphertext
block (42_modes.md R209). -/
def Answered.blockPair (x : Answered) : Option (Bytes × Bytes × Bytes) :=
  match x.request, x.answer with
  | .encryptBlock k p, .bytes c => some (k, p, c)
  | .decryptBlock k c, .bytes p => some (k, p, c)
  | _, _ => none

/-- What a Seal answer says: in this context, this plaintext seals to these bytes. -/
def Answered.sealing (x : Answered) : Option (SealContext × Bytes × Bytes) :=
  match x.request, x.answer with
  | .sealData t k n p a, .bytes c => some (⟨t, k, n, a⟩, p, c)
  | _, _ => none

/-- What an Open answer says: in this context, these bytes open to a plaintext, or to nothing. -/
def Answered.opening (x : Answered) : Option (SealContext × Bytes × Option Bytes) :=
  match x.request, x.answer with
  | .openData t k n c a, .bytes p => some (⟨t, k, n, a⟩, c, some p)
  | .openData t k n c a, .fail => some (⟨t, k, n, a⟩, c, none)
  | _, _ => none

/-- 42_modes.md R209: `E_K` and `D_K` are functions on blocks, and `D_K(E_K(x)) = x`. There are finitely
many blocks, so `D_K` is then the inverse of `E_K` on all of them: under one key, two pairs have the same
plaintext block exactly when they have the same ciphertext block. -/
def blockLaw (x y : Answered) : Bool :=
  match x.blockPair, y.blockPair with
  | some (k, p, c), some (k', p', c') => k != k' || ((p == p') == (c == c'))
  | _, _ => true

/-- 42_modes.md R208, R201, R205, between two Seal answers: Seal is a function of its context and plaintext
(law 1), and what it gives opens to that plaintext in that context alone (law 2; R201, R205), so equal
arguments and equal results go together; and no result is another with a bit flipped, since Open would have
to open it (law 2) and to fail on it (law 4). -/
def sealLaw (x y : Answered) : Bool :=
  match x.sealing, y.sealing with
  | some (u, p, c), some (u', p', c') => (u == u' && p == p') == (c == c') && !oneBitApart c c'
  | _, _ => true

/-- 42_modes.md R208, R201, R205, between a Seal answer and an Open answer: what was sealed opens to its
plaintext in its own context (law 2); with one bit flipped (law 4), under another key, nonce or additional
data (R201), or with another tag size (R205), it does not open. -/
def openLaw (x y : Answered) : Bool :=
  match x.sealing, y.opening with
  | some (u, p, c), some (u', c', r) =>
    if u = u' ∧ c = c' then r == some p else !(c == c' || oneBitApart c c') || r == none
  | _, _ => true

/-- Two answers that collaborators under the laws of 42_modes.md R208 and R209 can both have given. -/
def Answered.agrees (x y : Answered) : Bool := blockLaw x y && sealLaw x y && openLaw x y && openLaw y x

/-- Can this be the answer to this request, after these answers? -/
def lawfulAnswer (before : List Answered) (q : Request) (a : Answer) : Bool :=
  q.fits a && before.all fun x => x.agrees ⟨q, a⟩

/-- The answer to a request among the answers had so far. -/
def findAnswer : List Answered → Request → Option Answer
  | [], _ => none
  | x :: xs, q => if x.request = q ∧ q.fits x.answer = true then some x.answer else findAnswer xs q

/-- The answer the running command has had to a request, if it has had one (60_exceptions.md R251).
Log 4. -/
def State.ask (s : State) (q : Request) : Option Answer := findAnswer s.answers q

/-- `if X.Init(..) = fail then raise Err(CIPHER_INIT_FAILED, 0)` (42_modes.md R186, R188), for a
construction request. -/
def askInit (s : State) (q : Request) : Cmd Unit :=
  match s.ask q with
  | some .fail => raise .cipherInitFailed 0
  | some _ => .ok ()
  | none => .error (.wait q)

/-- A request for bytes: its answer, the given error if it is answered with failure, a wait if it is not
answered. -/
def askBytes (s : State) (q : Request) (code : Code) (arg : Nat) : Cmd Bytes :=
  match s.ask q with
  | some (.bytes b) => .ok b
  | some _ => raise code arg
  | none => .error (.wait q)

/-- A request whose only answer is bytes (a Seal request, 60_exceptions.md R251). -/
def askData (s : State) (q : Request) : Cmd Bytes :=
  match s.ask q with
  | some (.bytes b) => .ok b
  | _ => .error (.wait q)

/-- A list of requests made one after the other: a wait at the first that has no answer
(10_state.md R41: at most one is outstanding). -/
def askAll (s : State) : List Request → Cmd Unit
  | [] => .ok ()
  | q :: qs =>
    match s.ask q with
    | some _ => askAll s qs
    | none => .error (.wait q)

/-- `CapCheck` (60_exceptions.md R245): the first length above BUF_CAP is reported. -/
def capCheck (cap : Nat) : List Nat → Cmd Unit
  | [] => .ok ()
  | l :: ls => if l > cap then raise .capacityExceeded l else capCheck cap ls

/-! ### The outcome of a command -/

/-- `finish(out)` (60_exceptions.md R242). The outstanding request and the answers belong to the command
and end with it (10_state.md R42). -/
def finish (s : State) (out : Bytes) : State :=
  { s with
    mem     := s.mem.writeBytes (Buf.base .output) out
    outLen  := BitVec.ofNat 64 out.length
    err     := .ok
    errarg  := 0
    done    := true
    busy    := false
    pending := none
    answers := [] }

/-- `raise Err(code, arg)` as it ends a command (60_exceptions.md R243). -/
def raiseErr (s : State) (code : Code) (arg : Nat) : State :=
  { s with
    outLen  := 0
    err     := code
    errarg  := BitVec.ofNat 64 arg
    done    := true
    busy    := false
    pending := none
    answers := [] }

/-- A command that has reached a request without an answer: the request is outstanding, and the machine
stays Busy until it is answered (10_state.md R41, 70_reset_and_hazards.md R280). A request that is
outstanding already is not issued again (60_exceptions.md R251). -/
def waitFor (s : State) (q : Request) : State :=
  match s.pending with
  | some o =>
    if o.request = q then s
    else { s with pending := some ⟨s.tickets, q⟩, tickets := s.tickets + 1 }
  | none => { s with pending := some ⟨s.tickets, q⟩, tickets := s.tickets + 1 }

/-- What the run of a command's pseudocode does to the state (00_scope.md R14). -/
def conclude (s : State) : Cmd Bytes → State
  | .ok out => finish s out
  | .error (.err code arg) => raiseErr s code arg
  | .error (.wait q) => waitFor s q

/-- One command: its pseudocode runs on the operands and the answers had so far. It always has a next
state (60_exceptions.md R240). -/
def runCommand (s : State) (c : Cmd Bytes) : Host.Outcome State Fault Refusal := .next (conclude s c)

/-- An illegal command word: `raise Err(ILLEGAL_COMMAND, zext_64(w))` and nothing else
(30_encoding.md R78). -/
def illegalCommand (s : State) : Host.Outcome State Fault Refusal :=
  .next (raiseErr s .illegalCommand s.cmd.toNat)

/-- Acceptance of a CMD write (10_state.md R23, R40): the whole word is latched, the machine is Busy and
DONE is cleared. No request has been made yet. -/
def accept (s : State) (w : Word) : State :=
  { s with cmd := w, busy := true, done := false, pending := none, answers := [] }

/-- The word the sequencer executes (10_state.md R40, 20_memory.md R64). -/
def State.latched (s : State) : Word := s.cmd

/-- A collaborator's answer arrives (60_exceptions.md R251, each request is answered once). An answer to
a request that is not the outstanding one is ignored (70_reset_and_hazards.md R271); one that the
laws of its collaborator exclude is refused (93_implementation_defined.md U24). -/
def answerArrives (s : State) (ticket : Nat) (a : Answer) : Host.Outcome State Fault Refusal :=
  match s.pending with
  | none => .next s
  | some o =>
    if o.ticket = ticket then
      if lawfulAnswer s.transcript o.request a then
        .next
          { s with
            pending    := none
            answers    := s.answers ++ [⟨o.request, a⟩]
            transcript := s.transcript ++ [⟨o.request, a⟩] }
      else .refused .collaboratorBrokeLaw
    else .next s

/-- The reset event (70_reset_and_hazards.md R270 to R272), at any time: every register at its reset
value, Idle, no outstanding request, and new draws for the buffers. The parameters, the agents' further
turns, the collaborators' own past and the model's counters are not PADMODE's to reset; the request counter
goes on, so an answer to an abandoned request is still known as such (R271). -/
def resetEvent (s : State) : State :=
  { State.reset with
    params     := s.params
    transcript := s.transcript
    turns      := s.turns
    draws      := s.draws
    epoch      := s.epoch + 1
    tickets    := s.tickets }

end Sys2Proof.Machine
end

