-- ==== Sys2Proof/Machine/Flags.lean ====
section
/-! DEFINITION. STATUS, its fields and the interrupt output (10_state.md R24, R43; 60_exceptions.md R241,
R247). ERR is the only condition code there is, and a command sets it only by ending (10_state.md R24). -/

namespace Sys2Proof.Machine

/-- The number of a status code (60_exceptions.md R241). -/
def Code.byte : Code → Byte
  | .ok => 0x00
  | .emptyData => 0x01
  | .invalidBlockSize => 0x02
  | .invalidKeySize => 0x03
  | .invalidIvSize => 0x04
  | .ivSizeMismatch => 0x05
  | .invalidData => 0x06
  | .invalidCiphertext => 0x07
  | .invalidNonceSize => 0x08
  | .invalidTagSize => 0x09
  | .dataTooLarge => 0x0A
  | .authenticationFailed => 0x0B
  | .entropyError => 0x0C
  | .cipherInitFailed => 0x0D
  | .illegalCommand => 0x0E
  | .capacityExceeded => 0x0F

/-- A STATUS word: BUSY in bit 0, DONE in bit 1, BUSYWR in bit 2, ERR in bits 15:8, the reserved bits 0
(10_state.md R24). -/
def statusOf (busy done busywr : Bool) (err : Byte) : Word :=
  (0 : BitVec 16) ++ err ++ (0 : BitVec 5) ++ BitVec.ofBool busywr ++ BitVec.ofBool done ++ BitVec.ofBool busy

/-- STATUS as it reads while Idle (10_state.md R24). -/
def State.status (s : State) : Word := statusOf s.busy s.done s.busywr s.err.byte

/-- The interrupt output (10_state.md R43, 60_exceptions.md R247). -/
def State.irq (s : State) : Bool := s.done && s.ie

/-- A write to STATUS while Idle: writing 1 clears DONE and BUSYWR, writing 0 has no effect, the other
fields ignore it (10_state.md R24). -/
def writeStatus (s : State) (v : Word) : State :=
  { s with done := s.done && !v.getLsbD 1, busywr := s.busywr && !v.getLsbD 2 }

end Sys2Proof.Machine
end

