-- ==== Sys2Proof/Machine/Bus.lean ====
section
/-! DEFINITION. The host's bus accesses: the register file, the buffer windows, access rules, and the busy
rules (10_state.md R23 to R38, 20_memory.md R50 to R57, 70_reset_and_hazards.md R274, R275). -/

namespace Sys2Proof.Machine

/-! ### Addresses and widths -/

/-- The number of bytes of an access (20_memory.md R53); `wide` stands for any access wider than 4. -/
def Width.bytes : Width → Nat
  | .byte => 1 | .half => 2 | .word => 4 | .wide => 8

/-- The offset from BASE that a bus address selects; `none` where the address is not PADMODE's
(20_memory.md R50). Log 14. -/
def offsetOf (base address : Nat) : Option Nat :=
  if base ≤ address ∧ address < base + 2 ^ 32 then some (address - base) else none

/-- The region an offset selects, `off[31:28]` (20_memory.md R51). -/
def regionOf (off : Nat) : Nat := off / 2 ^ 28

/-- The byte offset within its region, `off[27:0]` (20_memory.md R51). -/
def withinRegion (off : Nat) : Nat := off % 2 ^ 28

/-- Does the access keep 20_memory.md R53? A register access is 32 bits wide, another at most 32, and the
offset is a multiple of the width. -/
def accessOk (off : Nat) (w : Width) : Bool :=
  match w with
  | .wide => false
  | .byte | .half => regionOf off != 0 && off % w.bytes == 0
  | .word => off % w.bytes == 0

/-! ### Registers -/

/-- The 32-bit registers (10_state.md section 3). -/
inductive Reg where
  | cmd | status | ctrl | blksz | tagsz | bufcap
  | errargLo | errargHi | arg0Lo | arg0Hi | arg1Lo | arg1Hi
  | inLenLo | inLenHi | keyLenLo | keyLenHi | ivLenLo | ivLenHi | aadLenLo | aadLenHi
  | outLenLo | outLenHi
  deriving DecidableEq, Repr

/-- A register's offset (10_state.md section 3). -/
def Reg.offset : Reg → Nat
  | .cmd => 0x000 | .status => 0x004 | .ctrl => 0x008 | .blksz => 0x00C | .tagsz => 0x010
  | .bufcap => 0x014 | .errargLo => 0x018 | .errargHi => 0x01C | .arg0Lo => 0x020 | .arg0Hi => 0x024
  | .arg1Lo => 0x028 | .arg1Hi => 0x02C | .inLenLo => 0x030 | .inLenHi => 0x034 | .keyLenLo => 0x038
  | .keyLenHi => 0x03C | .ivLenLo => 0x040 | .ivLenHi => 0x044 | .aadLenLo => 0x048 | .aadLenHi => 0x04C
  | .outLenLo => 0x050 | .outLenHi => 0x054

/-- The register at an offset; `none` at a reserved offset (10_state.md section 3, R33). -/
def regAt (o : Nat) : Option Reg :=
  match o with
  | 0x000 => some .cmd | 0x004 => some .status | 0x008 => some .ctrl | 0x00C => some .blksz
  | 0x010 => some .tagsz | 0x014 => some .bufcap | 0x018 => some .errargLo | 0x01C => some .errargHi
  | 0x020 => some .arg0Lo | 0x024 => some .arg0Hi | 0x028 => some .arg1Lo | 0x02C => some .arg1Hi
  | 0x030 => some .inLenLo | 0x034 => some .inLenHi | 0x038 => some .keyLenLo | 0x03C => some .keyLenHi
  | 0x040 => some .ivLenLo | 0x044 => some .ivLenHi | 0x048 => some .aadLenLo | 0x04C => some .aadLenHi
  | 0x050 => some .outLenLo | 0x054 => some .outLenHi
  | _ => none

/-- bits[31:0] of a 64-bit register (20_memory.md R55). -/
def loHalf (d : DWord) : Word := d.extractLsb' 0 32

/-- bits[63:32] of a 64-bit register (20_memory.md R55). -/
def hiHalf (d : DWord) : Word := d.extractLsb' 32 32

/-- A write to the `_LO` half leaves the other half unchanged (20_memory.md R55). -/
def setLo (d : DWord) (v : Word) : DWord := hiHalf d ++ v

/-- A write to the `_HI` half leaves the other half unchanged (20_memory.md R55). -/
def setHi (d : DWord) (v : Word) : DWord := v ++ loHalf d

/-- What a register reads as while no result is being replaced (10_state.md R23 to R32). -/
def readReg (s : State) : Reg → Word
  | .cmd => s.cmd
  | .status => s.status
  | .ctrl => (BitVec.ofBool s.ie).setWidth 32
  | .blksz => s.blksz.setWidth 32
  | .tagsz => s.tagsz.setWidth 32
  | .bufcap => BitVec.ofNat 32 s.params.bufCap
  | .errargLo => loHalf s.errarg
  | .errargHi => hiHalf s.errarg
  | .arg0Lo => loHalf s.arg0
  | .arg0Hi => hiHalf s.arg0
  | .arg1Lo => loHalf s.arg1
  | .arg1Hi => hiHalf s.arg1
  | .inLenLo => loHalf s.inLen
  | .inLenHi => hiHalf s.inLen
  | .keyLenLo => loHalf s.keyLen
  | .keyLenHi => hiHalf s.keyLen
  | .ivLenLo => loHalf s.ivLen
  | .ivLenHi => hiHalf s.ivLen
  | .aadLenLo => loHalf s.aadLen
  | .aadLenHi => hiHalf s.aadLen
  | .outLenLo => loHalf s.outLen
  | .outLenHi => hiHalf s.outLen

/-- What a register reads as while Busy: ERR, ERRARG and OUT_LEN read as the draw `d`, every other field
as it is (70_reset_and_hazards.md R275). Log 10. -/
def readRegBusy (s : State) (d : Word) (r : Reg) : Word :=
  match r with
  | .status => statusOf s.busy s.done s.busywr (d.extractLsb' 0 8)
  | .errargLo | .errargHi | .outLenLo | .outLenHi => d
  | .cmd | .ctrl | .blksz | .tagsz | .bufcap | .arg0Lo | .arg0Hi | .arg1Lo | .arg1Hi | .inLenLo
  | .inLenHi | .keyLenLo | .keyLenHi | .ivLenLo | .ivLenHi | .aadLenLo | .aadLenHi => readReg s r

/-- A write to a register while Idle (10_state.md R23 to R32): a CMD write is accepted and starts a
command, STATUS clears by writing 1, a read-only register ignores it. -/
def writeReg (s : State) (v : Word) : Reg → State
  | .cmd => accept s v
  | .status => writeStatus s v
  | .ctrl => { s with ie := v.getLsbD 0 }
  | .blksz => { s with blksz := v.extractLsb' 0 8 }
  | .tagsz => { s with tagsz := v.extractLsb' 0 8 }
  | .bufcap | .errargLo | .errargHi | .outLenLo | .outLenHi => s
  | .arg0Lo => { s with arg0 := setLo s.arg0 v }
  | .arg0Hi => { s with arg0 := setHi s.arg0 v }
  | .arg1Lo => { s with arg1 := setLo s.arg1 v }
  | .arg1Hi => { s with arg1 := setHi s.arg1 v }
  | .inLenLo => { s with inLen := setLo s.inLen v }
  | .inLenHi => { s with inLen := setHi s.inLen v }
  | .keyLenLo => { s with keyLen := setLo s.keyLen v }
  | .keyLenHi => { s with keyLen := setHi s.keyLen v }
  | .ivLenLo => { s with ivLen := setLo s.ivLen v }
  | .ivLenHi => { s with ivLen := setHi s.ivLen v }
  | .aadLenLo => { s with aadLen := setLo s.aadLen v }
  | .aadLenHi => { s with aadLen := setHi s.aadLen v }

/-! ### Buffer windows -/

/-- The byte at an offset of a buffer or reserved region, as a read returns it: the buffer's byte below
BUF_CAP, 0x00 at and above it and in a reserved region (20_memory.md R51, R52); OUTBUF as 10_state.md
R37 says, and while Busy as the draw `d` of that byte (70_reset_and_hazards.md R275). -/
def windowByte (s : State) (d : Byte) (off : Nat) : Byte :=
  if withinRegion off < s.params.bufCap then
    match regionOf off with
    | 1 | 2 | 3 | 4 => s.byteAt off
    | 5 => if s.busy then d else s.outByte (withinRegion off)
    | _ => 0
  else 0

/-- The value of a `w`-byte read of a buffer or reserved region, little-endian (`MemRead`, 20_memory.md
R54); `d` is the draw, byte by byte. -/
def readWindow (s : State) (d : Word) (off : Nat) : Nat → Nat
  | 0 => 0
  | w + 1 =>
    readWindow s d off w + (windowByte s (d.extractLsb' (8 * w) 8) (off + w)).toNat * 2 ^ (8 * w)

/-- A write of one byte to a buffer or reserved region while Idle: only the four host-writable buffers
below BUF_CAP take it (20_memory.md R51, R52; 10_state.md R34, R38). -/
def writeByte (s : State) (off : Nat) (b : Byte) : State :=
  if withinRegion off < s.params.bufCap ∧ (1 ≤ regionOf off ∧ regionOf off ≤ 4) then
    { s with mem := s.mem.write off b }
  else s

/-- A `w`-byte write to a buffer or reserved region, little-endian (`MemWrite`, 20_memory.md R54). -/
def writeWindow (s : State) (v : Word) (off : Nat) : Nat → State
  | 0 => s
  | w + 1 => writeByte (writeWindow s v off w) (off + w) (v.extractLsb' (8 * w) 8)

/-! ### Accesses -/

/-- The value a read returns, given the draw `d` (20_memory.md R51, R57). -/
def readValue (s : State) (d : Word) (off : Nat) (w : Width) : Word :=
  if regionOf off = 0 then
    match regAt (withinRegion off) with
    | some r => if s.busy then readRegBusy s d r else readReg s r
    | none => 0
  else BitVec.ofNat 32 (readWindow s d off w.bytes)

/-- A read: it returns a value and changes nothing of PADMODE (20_memory.md R57). A read while Busy uses
up a draw. Log 3, log 10. -/
def busRead (s : State) (off : Nat) (w : Width) : State :=
  { s with
    reply := some (.data (readValue s (Config.freeWord s.draws) off w))
    draws := if s.busy then s.draws + 1 else s.draws }

/-- What a write does while Idle (20_memory.md R51, 10_state.md R33). -/
def writeIdle (s : State) (v : Word) (off : Nat) (w : Width) : State :=
  if regionOf off = 0 then
    match regAt (withinRegion off) with
    | some r => writeReg s v r
    | none => s
  else writeWindow s v off w.bytes

/-- A write: while Busy it only sets BUSYWR, wherever it goes (70_reset_and_hazards.md R274). -/
def busWrite (s : State) (v : Word) (off : Nat) (w : Width) : State :=
  if s.busy then { s with busywr := true, reply := some .written }
  else { writeIdle s v off w with reply := some .written }

/-- An access that breaks 20_memory.md R53: the bus error response, and no state of PADMODE changes
(R56); on a bus without one, a fault of the host program. Log 8. -/
def busError (s : State) : Host.Outcome State Fault Refusal :=
  if s.params.busErrors then .next { s with reply := some .busError } else .fault .hostAccess

/-- One bus access (20_memory.md R50 to R57). An address that is not PADMODE's does not reach it. -/
def busAccess (a : Access) (s : State) : Host.Outcome State Fault Refusal :=
  match offsetOf s.params.base a.address with
  | none => .next s
  | some off =>
    if accessOk off a.width then
      match a.kind with
      | .read => .next (busRead s off a.width)
      | .write v => .next (busWrite s v off a.width)
    else busError s

end Sys2Proof.Machine
end

