-- ==== Sys2Proof/Machine/Operands.lean ====
section
/-! DEFINITION. The operands of the commands (30_encoding.md R79, 10_state.md R39) and the byte-sequence
helpers of the pseudocode (00_scope.md R11). -/

namespace Sys2Proof.Machine

/-- The view IN (10_state.md R39). -/
def State.inBytes (s : State) : Bytes := s.view .input s.inLen.toNat

/-- The view KEY (10_state.md R39). -/
def State.keyBytes (s : State) : Bytes := s.view .key s.keyLen.toNat

/-- The view IV, the IV or nonce (10_state.md R39). -/
def State.ivBytes (s : State) : Bytes := s.view .iv s.ivLen.toNat

/-- The view AAD (10_state.md R39). -/
def State.aadBytes (s : State) : Bytes := s.view .aad s.aadLen.toNat

/-- The output of the last completed command as the host reads it: OUTBUF[0..OUT_LEN)
(10_state.md R37). -/
def State.outBytes (s : State) : Bytes := (List.range s.outLen.toNat).map s.outByte

/-- The effective block size `PadB(s, b)`: 8 for PKCS5, whatever the caller supplies
(40_padding.md R101). -/
def padB : Scheme → Nat → Nat
  | .pkcs5, _ => 8
  | .zero, b | .bit, b | .pkcs7, b | .x923, b | .iso7816, b | .iso10126, b => b

/-- The tag size of a GCM variant: TAGSZ for TAG, 16 for the others (42_modes.md R188). -/
def State.tagSize (s : State) : GVar → Nat
  | .tag => s.tagsz.toNat
  | .std | .nonce => 16

/-- `repeat(n, v)` (00_scope.md R11). -/
def repeatByte (n : Nat) (v : Byte) : Bytes := List.replicate n v

/-- `xor(s, t)` of sequences of equal length (00_scope.md R11). -/
def xorBytes (a b : Bytes) : Bytes := List.zipWith (fun x y => x ^^^ y) a b

/-- `Blocks(P)` (42_modes.md R181), with a bound on the number of blocks. -/
def blocksUpTo : Nat → Bytes → List Bytes
  | 0, _ => []
  | n + 1, p => if p.isEmpty then [] else p.take Config.cipherBlock :: blocksUpTo n (p.drop Config.cipherBlock)

/-- `Blocks(P)`: 16 bytes each, the last possibly fewer (42_modes.md R181). A sequence has no more blocks
than bytes. -/
def blocks (p : Bytes) : List Bytes := blocksUpTo p.length p

/-- A byte sequence read as one unsigned integer, byte 0 most significant: `BE(x)` (42_modes.md R185). -/
def beNat : Bytes → Nat
  | [] => 0
  | b :: bs => b.toNat * 256 ^ bs.length + beNat bs

/-- The `n`-byte sequence whose `BE` is `v`, for `v < 256^n`: `BE_inv(v)` (42_modes.md R185). -/
def beBytes : Nat → Nat → Bytes
  | 0, _ => []
  | n + 1, v => BitVec.ofNat 8 (v / 256 ^ n) :: beBytes n v

end Sys2Proof.Machine
end

