-- ==== Sys2Proof/Machine/Validator.lean ====
section
/-! DEFINITION. The size and precondition validator: the ten predicates and the VAL commands
(41_validator.md). A predicate returns with no effect or raises (R150). -/

namespace Sys2Proof.Machine

/-- The sizes of the AES family: {16, 24, 32} (00_scope.md R8). -/
def aesSize (n : Nat) : Bool := n == 16 || n == 24 || n == 32

/-- `validKeySize(n)` (41_validator.md R150). -/
def validKeySize (n : Nat) : Cmd Unit := if aesSize n then .ok () else raise .invalidKeySize n

/-- `validBlockSize(n)` (41_validator.md R150). -/
def validBlockSize (n : Nat) : Cmd Unit := if aesSize n then .ok () else raise .invalidBlockSize n

/-- `validIvSize(n)` (41_validator.md R150). -/
def validIvSize (n : Nat) : Cmd Unit := if aesSize n then .ok () else raise .invalidIvSize n

/-- The last comparison of `ivSizeEquality` (41_validator.md R150). -/
def ivEqual (iv b : Nat) : Cmd Unit := if iv ≠ b then raise .ivSizeMismatch iv else .ok ()

/-- `ivSizeEquality(iv, b)`: IV size, then block size, then equality (41_validator.md R150, R154). -/
def ivSizeEquality (iv b : Nat) : Cmd Unit := do
  validIvSize iv
  validBlockSize b
  ivEqual iv b

/-- `validCiphertext(l, b)` (41_validator.md R150). -/
def validCiphertext (l b : Nat) : Cmd Unit :=
  if b = 0 ∨ l % b ≠ 0 then raise .invalidCiphertext l else .ok ()

/-- `validStdNonceSize(n)` (41_validator.md R150). -/
def validStdNonceSize (n : Nat) : Cmd Unit := if n ≠ 12 then raise .invalidNonceSize n else .ok ()

/-- `validNonceSize(n)` (41_validator.md R150). -/
def validNonceSize (n : Nat) : Cmd Unit := if n = 0 then raise .invalidNonceSize 0 else .ok ()

/-- `validTagSize(t)` (41_validator.md R150). -/
def validTagSize (t : Nat) : Cmd Unit := if t < 12 ∨ t > 16 then raise .invalidTagSize t else .ok ()

/-- `validDataSize(l, b)`, the product exact (41_validator.md R150, 00_scope.md R12). -/
def validDataSize (l b : Nat) : Cmd Unit :=
  if l > (2 ^ 32 - 2) * b then raise .dataTooLarge l else .ok ()

/-- `emptyData(l)` (41_validator.md R150). -/
def emptyData (l : Nat) : Cmd Unit := if l = 0 then raise .emptyData 0 else .ok ()

/-- A VAL command: its predicate, then `finish([])` (41_validator.md R151). -/
def valCmd (p : Cmd Unit) : Cmd Bytes := do
  p
  .ok []

/-- VAL.KEYSIZE: `validKeySize(ARG0); finish([])` (41_validator.md R151). -/
def execValKeysize (s : State) : Host.Outcome State Fault Refusal :=
  runCommand s (valCmd (validKeySize s.arg0.toNat))

/-- VAL.BLOCKSIZE: `validBlockSize(ARG0); finish([])` (41_validator.md R152). -/
def execValBlocksize (s : State) : Host.Outcome State Fault Refusal :=
  runCommand s (valCmd (validBlockSize s.arg0.toNat))

/-- VAL.IVSIZE: `validIvSize(ARG0); finish([])` (41_validator.md R153). -/
def execValIvsize (s : State) : Host.Outcome State Fault Refusal :=
  runCommand s (valCmd (validIvSize s.arg0.toNat))

/-- VAL.IVEQ: `ivSizeEquality(ARG0, ARG1); finish([])` (41_validator.md R154). -/
def execValIveq (s : State) : Host.Outcome State Fault Refusal :=
  runCommand s (valCmd (ivSizeEquality s.arg0.toNat s.arg1.toNat))

/-- VAL.CIPHERTEXT: `validCiphertext(ARG0, ARG1); finish([])` (41_validator.md R155). -/
def execValCiphertext (s : State) : Host.Outcome State Fault Refusal :=
  runCommand s (valCmd (validCiphertext s.arg0.toNat s.arg1.toNat))

/-- VAL.STDNONCE: `validStdNonceSize(ARG0); finish([])` (41_validator.md R156). -/
def execValStdnonce (s : State) : Host.Outcome State Fault Refusal :=
  runCommand s (valCmd (validStdNonceSize s.arg0.toNat))

/-- VAL.NONCESIZE: `validNonceSize(ARG0); finish([])` (41_validator.md R157). -/
def execValNoncesize (s : State) : Host.Outcome State Fault Refusal :=
  runCommand s (valCmd (validNonceSize s.arg0.toNat))

/-- VAL.TAGSIZE: `validTagSize(ARG0); finish([])` (41_validator.md R158). -/
def execValTagsize (s : State) : Host.Outcome State Fault Refusal :=
  runCommand s (valCmd (validTagSize s.arg0.toNat))

/-- VAL.DATASIZE: `validDataSize(ARG0, ARG1); finish([])` (41_validator.md R159). -/
def execValDatasize (s : State) : Host.Outcome State Fault Refusal :=
  runCommand s (valCmd (validDataSize s.arg0.toNat s.arg1.toNat))

/-- VAL.EMPTY: `emptyData(ARG0); finish([])` (41_validator.md R160). -/
def execValEmpty (s : State) : Host.Outcome State Fault Refusal :=
  runCommand s (valCmd (emptyData s.arg0.toNat))

end Sys2Proof.Machine
end

