-- ==== Sys2Proof/Machine/Gcm.lean ====
section
/-! DEFINITION. The mode dispatcher for GCM (42_modes.md R188, R189, R200 to R205, R210). -/

namespace Sys2Proof.Machine

/-- The nonce check of a variant: any length but 0 for NONCE, 12 for the others (42_modes.md R188). -/
def nonceCheck (v : GVar) (n : Nat) : Cmd Unit :=
  match v with
  | .nonce => validNonceSize n
  | .std | .tag => validStdNonceSize n

/-- The bound on the plaintext of a decryption, IN_LEN - t, where there is one (42_modes.md R189). -/
def gcmDecSizeCheck (n t : Nat) : Cmd Unit :=
  if n > t then validDataSize (n - t) Config.cipherBlock else .ok ()

/-- `if IN_LEN < t then raise Err(AUTHENTICATION_FAILED, 0)` (42_modes.md R189). -/
def gcmShortCheck (n t : Nat) : Cmd Unit := if n < t then raise .authenticationFailed 0 else .ok ()

/-- `GcmEnc(v)` (42_modes.md R188). -/
def gcmEnc (v : GVar) (s : State) : Cmd Bytes := do
  let n := s.inLen.toNat
  let t := s.tagSize v
  emptyData n
  validKeySize s.keyLen.toNat
  nonceCheck v s.ivLen.toNat
  validTagSize t
  askInit s (.cipherInit s.keyBytes)
  askInit s (.aeadInit s.ivLen.toNat t)
  validDataSize n Config.cipherBlock
  capCheck s.params.bufCap [n, s.keyLen.toNat, s.ivLen.toNat, s.aadLen.toNat, n + t]
  askData s (.sealData t s.keyBytes s.ivBytes s.inBytes s.aadBytes)

/-- `GcmDec(v)`; the AEAD is constructed with the tag size (42_modes.md R189, R210). -/
def gcmDec (v : GVar) (s : State) : Cmd Bytes := do
  let n := s.inLen.toNat
  let t := s.tagSize v
  emptyData n
  validKeySize s.keyLen.toNat
  nonceCheck v s.ivLen.toNat
  validTagSize t
  askInit s (.cipherInit s.keyBytes)
  askInit s (.aeadInit s.ivLen.toNat t)
  gcmDecSizeCheck n t
  capCheck s.params.bufCap [n, s.keyLen.toNat, s.ivLen.toNat, s.aadLen.toNat]
  gcmShortCheck n t
  askBytes s (.openData t s.keyBytes s.ivBytes s.inBytes s.aadBytes) .authenticationFailed 0

/-- ENC.GCM.STD (42_modes.md R200). -/
def execEncGcmStd (s : State) : Host.Outcome State Fault Refusal := runCommand s (gcmEnc .std s)

/-- DEC.GCM.STD (42_modes.md R201). -/
def execDecGcmStd (s : State) : Host.Outcome State Fault Refusal := runCommand s (gcmDec .std s)

/-- ENC.GCM.NONCE (42_modes.md R202). -/
def execEncGcmNonce (s : State) : Host.Outcome State Fault Refusal := runCommand s (gcmEnc .nonce s)

/-- DEC.GCM.NONCE (42_modes.md R203). -/
def execDecGcmNonce (s : State) : Host.Outcome State Fault Refusal := runCommand s (gcmDec .nonce s)

/-- ENC.GCM.TAG (42_modes.md R204). -/
def execEncGcmTag (s : State) : Host.Outcome State Fault Refusal := runCommand s (gcmEnc .tag s)

/-- DEC.GCM.TAG (42_modes.md R205). -/
def execDecGcmTag (s : State) : Host.Outcome State Fault Refusal := runCommand s (gcmDec .tag s)

end Sys2Proof.Machine
end

