-- ==== Sys2Proof/Machine/Padding.lean ====
section
/-! DEFINITION. The padding encoder and decoder: PAD and UNPAD (40_padding.md), and the padding that ENC and
DEC use (42_modes.md). -/

namespace Sys2Proof.Machine

/-- `Ovh(n, B)`: how many bytes a padding adds (40_padding.md R100). -/
def ovh (n b : Nat) : Nat := b - n % b

/-- `Trailer(s, ov)`: the bytes a padding appends (40_padding.md R102). ISO10126 asks the randomness
source for its filler, unless the filler is empty. -/
def trailer (s : State) (sch : Scheme) (ov : Nat) : Cmd Bytes :=
  match sch with
  | .zero => .ok (repeatByte ov 0x00)
  | .bit | .iso7816 => .ok (0x80 :: repeatByte (ov - 1) 0x00)
  | .pkcs7 | .pkcs5 => .ok (repeatByte ov (BitVec.ofNat 8 ov))
  | .x923 => .ok (repeatByte (ov - 1) 0x00 ++ [BitVec.ofNat 8 ov])
  | .iso10126 =>
    if ov = 1 then .ok [0x01]
    else do
      let r ← askBytes s (.rngFill (ov - 1)) .entropyError (ov - 1)
      .ok (r ++ [BitVec.ofNat 8 ov])

/-- The ZERO and BIT removals start by dropping every trailing 0x00 (40_padding.md R103). The result is
reversed: last byte first. -/
def dropZerosReversed (d : Bytes) : Bytes := d.reverse.dropWhile fun x => x == 0x00

/-- The count byte of PKCS7, X923 and ISO10126: the last byte, unsigned (40_padding.md R103, 00_scope.md
R12). -/
def countByte (d : Bytes) : Byte := d.getLastD 0

/-- The backward scan of ISO7816 over the indices `lo` to `lo + k - 1`, highest first: the index of the
first 0x80 it meets (40_padding.md R103, R117). -/
def scanBack (d : Bytes) (lo : Nat) : Nat → Option Nat
  | 0 => none
  | k + 1 => if d.getD (lo + k) 0 = 0x80 then some (lo + k) else scanBack d lo k

/-- `Strip(s, D, B)`: `none` is INVALID_DATA(len D) (40_padding.md R103). It checks exactly what R103
states and no more (R123, R124). -/
def strip (sch : Scheme) (d : Bytes) (b : Nat) : Option Bytes :=
  match sch with
  | .zero => some (dropZerosReversed d).reverse
  | .bit =>
    match dropZerosReversed d with
    | [] => none
    | x :: xs => if x = 0x80 then some xs.reverse else none
  | .pkcs7 | .pkcs5 =>
    let c := countByte d
    if c.toNat = 0 ∨ c.toNat > d.length then none
    else if (d.drop (d.length - c.toNat)).all (fun x => x == c) then some (d.take (d.length - c.toNat))
    else none
  | .x923 =>
    let c := (countByte d).toNat
    if c = 0 ∨ c > d.length then none
    else if ((d.drop (d.length - c)).take (c - 1)).all (fun x => x == 0x00) then
      some (d.take (d.length - c))
    else none
  | .iso7816 =>
    match scanBack d (d.length - b) b with
    | some i => some (d.take i)
    | none => none
  | .iso10126 =>
    let c := (countByte d).toNat
    if c > d.length ∨ c > b then none else some (d.take (d.length - c))

/-- `Strip` as a step of a command's pseudocode (40_padding.md R103). -/
def stripOr (sch : Scheme) (d : Bytes) (b : Nat) : Cmd Bytes :=
  match strip sch d b with
  | some out => .ok out
  | none => raise .invalidData d.length

/-- `if n = 0 then raise Err(EMPTY_DATA, 0)` (40_padding.md R105, R112). -/
def padEmptyCheck (n : Nat) : Cmd Unit := if n = 0 then raise .emptyData 0 else .ok ()

/-- `if B = 0 then raise Err(INVALID_BLOCK_SIZE, 0)` (40_padding.md R105, R112). -/
def padBlockCheck (b : Nat) : Cmd Unit := if b = 0 then raise .invalidBlockSize 0 else .ok ()

/-- `if n mod B != 0 then raise Err(INVALID_DATA, n)` (40_padding.md R112, 42_modes.md R187). -/
def unpadAlignCheck (n b : Nat) : Cmd Unit := if n % b ≠ 0 then raise .invalidData n else .ok ()

/-- `PadCmd(s)` (40_padding.md R105). -/
def padCmd (sch : Scheme) (s : State) : Cmd Bytes := do
  let n := s.inLen.toNat
  let b := padB sch s.blksz.toNat
  padEmptyCheck n
  padBlockCheck b
  capCheck s.params.bufCap [n, n + ovh n b]
  let t ← trailer s sch (ovh n b)
  .ok (s.inBytes ++ t)

/-- `UnpadCmd(s)` (40_padding.md R112). -/
def unpadCmd (sch : Scheme) (s : State) : Cmd Bytes := do
  let n := s.inLen.toNat
  let b := padB sch s.blksz.toNat
  padEmptyCheck n
  padBlockCheck b
  unpadAlignCheck n b
  capCheck s.params.bufCap [n]
  stripOr sch s.inBytes b

/-- PAD.ZERO (40_padding.md R105). -/
def execPadZero (s : State) : Host.Outcome State Fault Refusal := runCommand s (padCmd .zero s)

/-- PAD.BIT (40_padding.md R106, R105). -/
def execPadBit (s : State) : Host.Outcome State Fault Refusal := runCommand s (padCmd .bit s)

/-- PAD.PKCS7 (40_padding.md R107, R105). -/
def execPadPkcs7 (s : State) : Host.Outcome State Fault Refusal := runCommand s (padCmd .pkcs7 s)

/-- PAD.PKCS5 (40_padding.md R108, R105). -/
def execPadPkcs5 (s : State) : Host.Outcome State Fault Refusal := runCommand s (padCmd .pkcs5 s)

/-- PAD.X923 (40_padding.md R109, R105). -/
def execPadX923 (s : State) : Host.Outcome State Fault Refusal := runCommand s (padCmd .x923 s)

/-- PAD.ISO7816 (40_padding.md R110, R105). -/
def execPadIso7816 (s : State) : Host.Outcome State Fault Refusal := runCommand s (padCmd .iso7816 s)

/-- PAD.ISO10126 (40_padding.md R111, R105). -/
def execPadIso10126 (s : State) : Host.Outcome State Fault Refusal := runCommand s (padCmd .iso10126 s)

/-- UNPAD.ZERO (40_padding.md R112). -/
def execUnpadZero (s : State) : Host.Outcome State Fault Refusal := runCommand s (unpadCmd .zero s)

/-- UNPAD.BIT (40_padding.md R113, R112). -/
def execUnpadBit (s : State) : Host.Outcome State Fault Refusal := runCommand s (unpadCmd .bit s)

/-- UNPAD.PKCS7 (40_padding.md R114, R112). -/
def execUnpadPkcs7 (s : State) : Host.Outcome State Fault Refusal := runCommand s (unpadCmd .pkcs7 s)

/-- UNPAD.PKCS5 (40_padding.md R115, R112). -/
def execUnpadPkcs5 (s : State) : Host.Outcome State Fault Refusal := runCommand s (unpadCmd .pkcs5 s)

/-- UNPAD.X923 (40_padding.md R116, R112). -/
def execUnpadX923 (s : State) : Host.Outcome State Fault Refusal := runCommand s (unpadCmd .x923 s)

/-- UNPAD.ISO7816 (40_padding.md R117, R112). -/
def execUnpadIso7816 (s : State) : Host.Outcome State Fault Refusal := runCommand s (unpadCmd .iso7816 s)

/-- UNPAD.ISO10126 (40_padding.md R118, R112). -/
def execUnpadIso10126 (s : State) : Host.Outcome State Fault Refusal := runCommand s (unpadCmd .iso10126 s)

end Sys2Proof.Machine
end

