-- ==== Sys2Proof/Machine/Modes.lean ====
section
/-! DEFINITION. The mode dispatcher for ECB, CBC, CFB, OFB and CTR: the block transforms and the ENC and DEC
commands (42_modes.md R180 to R187, R190 to R199). -/

namespace Sys2Proof.Machine

/-! ### Block transforms

A transform is given the cipher as a function on blocks and yields, block by block, the cipher request it
makes and the output block it forms from the answer. -/

/-- One block of a transform: the 16 bytes given to the cipher, and the output bytes. -/
structure BlockCall where
  input  : Bytes
  output : Bytes
  deriving DecidableEq, Repr

/-- `EcbEnc` (with E) and `EcbDec` (with D): each block by itself (42_modes.md R182). -/
def ecbCalls (f : Bytes → Bytes) : List Bytes → List BlockCall
  | [] => []
  | p :: ps => ⟨p, f p⟩ :: ecbCalls f ps

/-- `CbcEnc`: the previous ciphertext block, first the IV, is XORed in before the cipher
(42_modes.md R182). -/
def cbcEncCalls (e : Bytes → Bytes) (prev : Bytes) : List Bytes → List BlockCall
  | [] => []
  | p :: ps => ⟨xorBytes p prev, e (xorBytes p prev)⟩ :: cbcEncCalls e (e (xorBytes p prev)) ps

/-- `CbcDec`: the previous ciphertext block, first the IV, is XORed in after the inverse cipher
(42_modes.md R182). -/
def cbcDecCalls (d : Bytes → Bytes) (prev : Bytes) : List Bytes → List BlockCall
  | [] => []
  | c :: cs => ⟨c, xorBytes (d c) prev⟩ :: cbcDecCalls d c cs

/-- `CfbEnc`: the keystream block is E of the previous ciphertext block, first of the IV
(42_modes.md R183). Log 13. -/
def cfbEncCalls (e : Bytes → Bytes) (prev : Bytes) : List Bytes → List BlockCall
  | [] => []
  | p :: ps =>
    ⟨prev, xorBytes p ((e prev).take p.length)⟩ :: cfbEncCalls e (xorBytes p ((e prev).take p.length)) ps

/-- `CfbDec`: as `CfbEnc`, with the ciphertext block as it came (42_modes.md R183). Log 13. -/
def cfbDecCalls (e : Bytes → Bytes) (prev : Bytes) : List Bytes → List BlockCall
  | [] => []
  | c :: cs => ⟨prev, xorBytes c ((e prev).take c.length)⟩ :: cfbDecCalls e c cs

/-- `OfbXor`: the keystream block is E of the previous keystream block, first of the IV
(42_modes.md R184). Log 13. -/
def ofbCalls (e : Bytes → Bytes) (prev : Bytes) : List Bytes → List BlockCall
  | [] => []
  | p :: ps => ⟨prev, xorBytes p ((e prev).take p.length)⟩ :: ofbCalls e (e prev) ps

/-- The next counter block: the 16 bytes as a big-endian integer, plus 1, modulo 2^128
(42_modes.md R185). Log 13. -/
def nextCounter (t : Bytes) : Bytes := beBytes Config.cipherBlock ((beNat t + 1) % 2 ^ 128)

/-- `CtrXor`: the keystream block is E of the counter block, first of the IV (42_modes.md R185).
Log 13. -/
def ctrCalls (e : Bytes → Bytes) (t : Bytes) : List Bytes → List BlockCall
  | [] => []
  | p :: ps => ⟨t, xorBytes p ((e t).take p.length)⟩ :: ctrCalls e (nextCounter t) ps

/-- The encrypting transform `Xf_m` of a mode (42_modes.md R186). -/
def encCalls (m : BMode) (e : Bytes → Bytes) (iv p : Bytes) : List BlockCall :=
  match m with
  | .ecb => ecbCalls e (blocks p)
  | .cbc => cbcEncCalls e iv (blocks p)
  | .cfb => cfbEncCalls e iv (blocks p)
  | .ofb => ofbCalls e iv (blocks p)
  | .ctr => ctrCalls e iv (blocks p)

/-- The decrypting transform `Xi_m` of a mode, on E or D as `decRequest` says
(42_modes.md R187). -/
def decCalls (m : BMode) (f : Bytes → Bytes) (iv c : Bytes) : List BlockCall :=
  match m with
  | .ecb => ecbCalls f (blocks c)
  | .cbc => cbcDecCalls f iv (blocks c)
  | .cfb => cfbDecCalls f iv (blocks c)
  | .ofb => ofbCalls f iv (blocks c)
  | .ctr => ctrCalls f iv (blocks c)

/-- Which cipher request decryption makes: D_K for ECB and CBC, E_K for the others
(42_modes.md R182 to R185, R212). -/
def decRequest (m : BMode) (key x : Bytes) : Request :=
  match m with
  | .ecb | .cbc => .decryptBlock key x
  | .cfb | .ofb | .ctr => .encryptBlock key x

/-- `Concat` of the output blocks (42_modes.md R181). -/
def joined (calls : List BlockCall) : Bytes := (calls.map BlockCall.output).flatten

/-- The cipher as the answers had so far give it; an input that has had no answer gives the empty
sequence, and `runBlocks` waits for it. -/
def State.cipherFn (s : State) (q : Bytes → Request) (x : Bytes) : Bytes :=
  match s.ask (q x) with
  | some (.bytes y) => y
  | _ => []

/-- The block requests of a transform, in order, then its output (42_modes.md R212). -/
def runBlocks (s : State) (q : Bytes → Request) (calls : List BlockCall) : Cmd Bytes := do
  askAll s (calls.map fun x => q x.input)
  .ok (joined calls)

/-! ### The command procedures -/

/-- ECB has no IV; every other mode wants one of exactly 16 bytes (42_modes.md R186, R180). -/
def modeIvCheck (m : BMode) (ivLen : Nat) : Cmd Unit :=
  match m with
  | .ecb => .ok ()
  | .cbc | .cfb | .ofb | .ctr => ivSizeEquality ivLen Config.cipherBlock

/-- The length PL of what is encrypted: IN_LEN, and the overhead of a scheme (42_modes.md R186). -/
def paddedLen (sch : Option Scheme) (n : Nat) : Nat :=
  match sch with
  | none => n
  | some k => n + ovh n (padB k Config.cipherBlock)

/-- `if m in {ECB, CBC} and PL mod 16 != 0 then raise Err(INVALID_DATA, PL)` (42_modes.md R186). -/
def encAlignCheck (m : BMode) (pl : Nat) : Cmd Unit :=
  match m with
  | .ecb | .cbc => if pl % Config.cipherBlock ≠ 0 then raise .invalidData pl else .ok ()
  | .cfb | .ofb | .ctr => .ok ()

/-- `if m in {ECB, CBC} then validCiphertext(IN_LEN, 16)` (42_modes.md R187). -/
def decAlignCheck (m : BMode) (n : Nat) : Cmd Unit :=
  match m with
  | .ecb | .cbc => validCiphertext n Config.cipherBlock
  | .cfb | .ofb | .ctr => .ok ()

/-- The lengths a non-GCM command checks first: IN_LEN, KEY_LEN, and IV_LEN if not ECB
(60_exceptions.md R245). -/
def modeLengths (m : BMode) (s : State) : List Nat :=
  match m with
  | .ecb => [s.inLen.toNat, s.keyLen.toNat]
  | .cbc | .cfb | .ofb | .ctr => [s.inLen.toNat, s.keyLen.toNat, s.ivLen.toNat]

/-- What is encrypted: IN, and the trailer of a scheme (42_modes.md R186). -/
def encInput (sch : Option Scheme) (s : State) : Cmd Bytes :=
  match sch with
  | none => .ok s.inBytes
  | some k => do
    let t ← trailer s k (ovh s.inLen.toNat (padB k Config.cipherBlock))
    .ok (s.inBytes ++ t)

/-- `EncBlk(m, s)` (42_modes.md R186). -/
def encBlk (m : BMode) (sch : Option Scheme) (s : State) : Cmd Bytes := do
  emptyData s.inLen.toNat
  validKeySize s.keyLen.toNat
  modeIvCheck m s.ivLen.toNat
  askInit s (.cipherInit s.keyBytes)
  encAlignCheck m (paddedLen sch s.inLen.toNat)
  capCheck s.params.bufCap (modeLengths m s ++ [paddedLen sch s.inLen.toNat])
  let p ← encInput sch s
  runBlocks s (.encryptBlock s.keyBytes) (encCalls m (s.cipherFn (.encryptBlock s.keyBytes)) s.ivBytes p)

/-- The end of a decryption: the plaintext, or with a scheme the plaintext without its trailer
(42_modes.md R187). -/
def decOutput (sch : Option Scheme) (p : Bytes) : Cmd Bytes :=
  match sch with
  | none => .ok p
  | some k => do
    unpadAlignCheck p.length (padB k Config.cipherBlock)
    stripOr k p (padB k Config.cipherBlock)

/-- `DecBlk(m, s)` (42_modes.md R187). -/
def decBlk (m : BMode) (sch : Option Scheme) (s : State) : Cmd Bytes := do
  emptyData s.inLen.toNat
  validKeySize s.keyLen.toNat
  modeIvCheck m s.ivLen.toNat
  askInit s (.cipherInit s.keyBytes)
  decAlignCheck m s.inLen.toNat
  capCheck s.params.bufCap (modeLengths m s)
  let p ← runBlocks s (decRequest m s.keyBytes)
    (decCalls m (s.cipherFn (decRequest m s.keyBytes)) s.ivBytes s.inBytes)
  decOutput sch p

/-! ### The commands -/

/-- ENC.ECB.NONE (42_modes.md R190). -/
def execEncEcbNone (s : State) : Host.Outcome State Fault Refusal := runCommand s (encBlk .ecb none s)

/-- ENC.ECB.ZERO (42_modes.md R190). -/
def execEncEcbZero (s : State) : Host.Outcome State Fault Refusal := runCommand s (encBlk .ecb (some .zero) s)

/-- ENC.ECB.BIT (42_modes.md R190). -/
def execEncEcbBit (s : State) : Host.Outcome State Fault Refusal := runCommand s (encBlk .ecb (some .bit) s)

/-- ENC.ECB.PKCS7 (42_modes.md R190). -/
def execEncEcbPkcs7 (s : State) : Host.Outcome State Fault Refusal := runCommand s (encBlk .ecb (some .pkcs7) s)

/-- ENC.ECB.PKCS5 (42_modes.md R190). -/
def execEncEcbPkcs5 (s : State) : Host.Outcome State Fault Refusal := runCommand s (encBlk .ecb (some .pkcs5) s)

/-- ENC.ECB.X923 (42_modes.md R190). -/
def execEncEcbX923 (s : State) : Host.Outcome State Fault Refusal := runCommand s (encBlk .ecb (some .x923) s)

/-- ENC.ECB.ISO7816 (42_modes.md R190). -/
def execEncEcbIso7816 (s : State) : Host.Outcome State Fault Refusal := runCommand s (encBlk .ecb (some .iso7816) s)

/-- ENC.ECB.ISO10126 (42_modes.md R190). -/
def execEncEcbIso10126 (s : State) : Host.Outcome State Fault Refusal := runCommand s (encBlk .ecb (some .iso10126) s)

/-- DEC.ECB.NONE (42_modes.md R191). -/
def execDecEcbNone (s : State) : Host.Outcome State Fault Refusal := runCommand s (decBlk .ecb none s)

/-- DEC.ECB.ZERO (42_modes.md R191). -/
def execDecEcbZero (s : State) : Host.Outcome State Fault Refusal := runCommand s (decBlk .ecb (some .zero) s)

/-- DEC.ECB.BIT (42_modes.md R191). -/
def execDecEcbBit (s : State) : Host.Outcome State Fault Refusal := runCommand s (decBlk .ecb (some .bit) s)

/-- DEC.ECB.PKCS7 (42_modes.md R191). -/
def execDecEcbPkcs7 (s : State) : Host.Outcome State Fault Refusal := runCommand s (decBlk .ecb (some .pkcs7) s)

/-- DEC.ECB.PKCS5 (42_modes.md R191). -/
def execDecEcbPkcs5 (s : State) : Host.Outcome State Fault Refusal := runCommand s (decBlk .ecb (some .pkcs5) s)

/-- DEC.ECB.X923 (42_modes.md R191). -/
def execDecEcbX923 (s : State) : Host.Outcome State Fault Refusal := runCommand s (decBlk .ecb (some .x923) s)

/-- DEC.ECB.ISO7816 (42_modes.md R191). -/
def execDecEcbIso7816 (s : State) : Host.Outcome State Fault Refusal := runCommand s (decBlk .ecb (some .iso7816) s)

/-- DEC.ECB.ISO10126 (42_modes.md R191). -/
def execDecEcbIso10126 (s : State) : Host.Outcome State Fault Refusal := runCommand s (decBlk .ecb (some .iso10126) s)

/-- ENC.CBC.NONE (42_modes.md R192). -/
def execEncCbcNone (s : State) : Host.Outcome State Fault Refusal := runCommand s (encBlk .cbc none s)

/-- ENC.CBC.ZERO (42_modes.md R192). -/
def execEncCbcZero (s : State) : Host.Outcome State Fault Refusal := runCommand s (encBlk .cbc (some .zero) s)

/-- ENC.CBC.BIT (42_modes.md R192). -/
def execEncCbcBit (s : State) : Host.Outcome State Fault Refusal := runCommand s (encBlk .cbc (some .bit) s)

/-- ENC.CBC.PKCS7 (42_modes.md R192). -/
def execEncCbcPkcs7 (s : State) : Host.Outcome State Fault Refusal := runCommand s (encBlk .cbc (some .pkcs7) s)

/-- ENC.CBC.PKCS5 (42_modes.md R192). -/
def execEncCbcPkcs5 (s : State) : Host.Outcome State Fault Refusal := runCommand s (encBlk .cbc (some .pkcs5) s)

/-- ENC.CBC.X923 (42_modes.md R192). -/
def execEncCbcX923 (s : State) : Host.Outcome State Fault Refusal := runCommand s (encBlk .cbc (some .x923) s)

/-- ENC.CBC.ISO7816 (42_modes.md R192). -/
def execEncCbcIso7816 (s : State) : Host.Outcome State Fault Refusal := runCommand s (encBlk .cbc (some .iso7816) s)

/-- ENC.CBC.ISO10126 (42_modes.md R192). -/
def execEncCbcIso10126 (s : State) : Host.Outcome State Fault Refusal := runCommand s (encBlk .cbc (some .iso10126) s)

/-- DEC.CBC.NONE (42_modes.md R193). -/
def execDecCbcNone (s : State) : Host.Outcome State Fault Refusal := runCommand s (decBlk .cbc none s)

/-- DEC.CBC.ZERO (42_modes.md R193). -/
def execDecCbcZero (s : State) : Host.Outcome State Fault Refusal := runCommand s (decBlk .cbc (some .zero) s)

/-- DEC.CBC.BIT (42_modes.md R193). -/
def execDecCbcBit (s : State) : Host.Outcome State Fault Refusal := runCommand s (decBlk .cbc (some .bit) s)

/-- DEC.CBC.PKCS7 (42_modes.md R193). -/
def execDecCbcPkcs7 (s : State) : Host.Outcome State Fault Refusal := runCommand s (decBlk .cbc (some .pkcs7) s)

/-- DEC.CBC.PKCS5 (42_modes.md R193). -/
def execDecCbcPkcs5 (s : State) : Host.Outcome State Fault Refusal := runCommand s (decBlk .cbc (some .pkcs5) s)

/-- DEC.CBC.X923 (42_modes.md R193). -/
def execDecCbcX923 (s : State) : Host.Outcome State Fault Refusal := runCommand s (decBlk .cbc (some .x923) s)

/-- DEC.CBC.ISO7816 (42_modes.md R193). -/
def execDecCbcIso7816 (s : State) : Host.Outcome State Fault Refusal := runCommand s (decBlk .cbc (some .iso7816) s)

/-- DEC.CBC.ISO10126 (42_modes.md R193). -/
def execDecCbcIso10126 (s : State) : Host.Outcome State Fault Refusal := runCommand s (decBlk .cbc (some .iso10126) s)

/-- ENC.CFB.NONE (42_modes.md R194). -/
def execEncCfbNone (s : State) : Host.Outcome State Fault Refusal := runCommand s (encBlk .cfb none s)

/-- ENC.CFB.ZERO (42_modes.md R194). -/
def execEncCfbZero (s : State) : Host.Outcome State Fault Refusal := runCommand s (encBlk .cfb (some .zero) s)

/-- ENC.CFB.BIT (42_modes.md R194). -/
def execEncCfbBit (s : State) : Host.Outcome State Fault Refusal := runCommand s (encBlk .cfb (some .bit) s)

/-- ENC.CFB.PKCS7 (42_modes.md R194). -/
def execEncCfbPkcs7 (s : State) : Host.Outcome State Fault Refusal := runCommand s (encBlk .cfb (some .pkcs7) s)

/-- ENC.CFB.PKCS5 (42_modes.md R194). -/
def execEncCfbPkcs5 (s : State) : Host.Outcome State Fault Refusal := runCommand s (encBlk .cfb (some .pkcs5) s)

/-- ENC.CFB.X923 (42_modes.md R194). -/
def execEncCfbX923 (s : State) : Host.Outcome State Fault Refusal := runCommand s (encBlk .cfb (some .x923) s)

/-- ENC.CFB.ISO7816 (42_modes.md R194). -/
def execEncCfbIso7816 (s : State) : Host.Outcome State Fault Refusal := runCommand s (encBlk .cfb (some .iso7816) s)

/-- ENC.CFB.ISO10126 (42_modes.md R194). -/
def execEncCfbIso10126 (s : State) : Host.Outcome State Fault Refusal := runCommand s (encBlk .cfb (some .iso10126) s)

/-- DEC.CFB.NONE (42_modes.md R195). -/
def execDecCfbNone (s : State) : Host.Outcome State Fault Refusal := runCommand s (decBlk .cfb none s)

/-- DEC.CFB.ZERO (42_modes.md R195). -/
def execDecCfbZero (s : State) : Host.Outcome State Fault Refusal := runCommand s (decBlk .cfb (some .zero) s)

/-- DEC.CFB.BIT (42_modes.md R195). -/
def execDecCfbBit (s : State) : Host.Outcome State Fault Refusal := runCommand s (decBlk .cfb (some .bit) s)

/-- DEC.CFB.PKCS7 (42_modes.md R195). -/
def execDecCfbPkcs7 (s : State) : Host.Outcome State Fault Refusal := runCommand s (decBlk .cfb (some .pkcs7) s)

/-- DEC.CFB.PKCS5 (42_modes.md R195). -/
def execDecCfbPkcs5 (s : State) : Host.Outcome State Fault Refusal := runCommand s (decBlk .cfb (some .pkcs5) s)

/-- DEC.CFB.X923 (42_modes.md R195). -/
def execDecCfbX923 (s : State) : Host.Outcome State Fault Refusal := runCommand s (decBlk .cfb (some .x923) s)

/-- DEC.CFB.ISO7816 (42_modes.md R195). -/
def execDecCfbIso7816 (s : State) : Host.Outcome State Fault Refusal := runCommand s (decBlk .cfb (some .iso7816) s)

/-- DEC.CFB.ISO10126 (42_modes.md R195). -/
def execDecCfbIso10126 (s : State) : Host.Outcome State Fault Refusal := runCommand s (decBlk .cfb (some .iso10126) s)

/-- ENC.OFB.NONE (42_modes.md R196). -/
def execEncOfbNone (s : State) : Host.Outcome State Fault Refusal := runCommand s (encBlk .ofb none s)

/-- ENC.OFB.ZERO (42_modes.md R196). -/
def execEncOfbZero (s : State) : Host.Outcome State Fault Refusal := runCommand s (encBlk .ofb (some .zero) s)

/-- ENC.OFB.BIT (42_modes.md R196). -/
def execEncOfbBit (s : State) : Host.Outcome State Fault Refusal := runCommand s (encBlk .ofb (some .bit) s)

/-- ENC.OFB.PKCS7 (42_modes.md R196). -/
def execEncOfbPkcs7 (s : State) : Host.Outcome State Fault Refusal := runCommand s (encBlk .ofb (some .pkcs7) s)

/-- ENC.OFB.PKCS5 (42_modes.md R196). -/
def execEncOfbPkcs5 (s : State) : Host.Outcome State Fault Refusal := runCommand s (encBlk .ofb (some .pkcs5) s)

/-- ENC.OFB.X923 (42_modes.md R196). -/
def execEncOfbX923 (s : State) : Host.Outcome State Fault Refusal := runCommand s (encBlk .ofb (some .x923) s)

/-- ENC.OFB.ISO7816 (42_modes.md R196). -/
def execEncOfbIso7816 (s : State) : Host.Outcome State Fault Refusal := runCommand s (encBlk .ofb (some .iso7816) s)

/-- ENC.OFB.ISO10126 (42_modes.md R196). -/
def execEncOfbIso10126 (s : State) : Host.Outcome State Fault Refusal := runCommand s (encBlk .ofb (some .iso10126) s)

/-- DEC.OFB.NONE (42_modes.md R197). -/
def execDecOfbNone (s : State) : Host.Outcome State Fault Refusal := runCommand s (decBlk .ofb none s)

/-- DEC.OFB.ZERO (42_modes.md R197). -/
def execDecOfbZero (s : State) : Host.Outcome State Fault Refusal := runCommand s (decBlk .ofb (some .zero) s)

/-- DEC.OFB.BIT (42_modes.md R197). -/
def execDecOfbBit (s : State) : Host.Outcome State Fault Refusal := runCommand s (decBlk .ofb (some .bit) s)

/-- DEC.OFB.PKCS7 (42_modes.md R197). -/
def execDecOfbPkcs7 (s : State) : Host.Outcome State Fault Refusal := runCommand s (decBlk .ofb (some .pkcs7) s)

/-- DEC.OFB.PKCS5 (42_modes.md R197). -/
def execDecOfbPkcs5 (s : State) : Host.Outcome State Fault Refusal := runCommand s (decBlk .ofb (some .pkcs5) s)

/-- DEC.OFB.X923 (42_modes.md R197). -/
def execDecOfbX923 (s : State) : Host.Outcome State Fault Refusal := runCommand s (decBlk .ofb (some .x923) s)

/-- DEC.OFB.ISO7816 (42_modes.md R197). -/
def execDecOfbIso7816 (s : State) : Host.Outcome State Fault Refusal := runCommand s (decBlk .ofb (some .iso7816) s)

/-- DEC.OFB.ISO10126 (42_modes.md R197). -/
def execDecOfbIso10126 (s : State) : Host.Outcome State Fault Refusal := runCommand s (decBlk .ofb (some .iso10126) s)

/-- ENC.CTR.NONE (42_modes.md R198). -/
def execEncCtrNone (s : State) : Host.Outcome State Fault Refusal := runCommand s (encBlk .ctr none s)

/-- ENC.CTR.ZERO (42_modes.md R198). -/
def execEncCtrZero (s : State) : Host.Outcome State Fault Refusal := runCommand s (encBlk .ctr (some .zero) s)

/-- ENC.CTR.BIT (42_modes.md R198). -/
def execEncCtrBit (s : State) : Host.Outcome State Fault Refusal := runCommand s (encBlk .ctr (some .bit) s)

/-- ENC.CTR.PKCS7 (42_modes.md R198). -/
def execEncCtrPkcs7 (s : State) : Host.Outcome State Fault Refusal := runCommand s (encBlk .ctr (some .pkcs7) s)

/-- ENC.CTR.PKCS5 (42_modes.md R198). -/
def execEncCtrPkcs5 (s : State) : Host.Outcome State Fault Refusal := runCommand s (encBlk .ctr (some .pkcs5) s)

/-- ENC.CTR.X923 (42_modes.md R198). -/
def execEncCtrX923 (s : State) : Host.Outcome State Fault Refusal := runCommand s (encBlk .ctr (some .x923) s)

/-- ENC.CTR.ISO7816 (42_modes.md R198). -/
def execEncCtrIso7816 (s : State) : Host.Outcome State Fault Refusal := runCommand s (encBlk .ctr (some .iso7816) s)

/-- ENC.CTR.ISO10126 (42_modes.md R198). -/
def execEncCtrIso10126 (s : State) : Host.Outcome State Fault Refusal := runCommand s (encBlk .ctr (some .iso10126) s)

/-- DEC.CTR.NONE (42_modes.md R199). -/
def execDecCtrNone (s : State) : Host.Outcome State Fault Refusal := runCommand s (decBlk .ctr none s)

/-- DEC.CTR.ZERO (42_modes.md R199). -/
def execDecCtrZero (s : State) : Host.Outcome State Fault Refusal := runCommand s (decBlk .ctr (some .zero) s)

/-- DEC.CTR.BIT (42_modes.md R199). -/
def execDecCtrBit (s : State) : Host.Outcome State Fault Refusal := runCommand s (decBlk .ctr (some .bit) s)

/-- DEC.CTR.PKCS7 (42_modes.md R199). -/
def execDecCtrPkcs7 (s : State) : Host.Outcome State Fault Refusal := runCommand s (decBlk .ctr (some .pkcs7) s)

/-- DEC.CTR.PKCS5 (42_modes.md R199). -/
def execDecCtrPkcs5 (s : State) : Host.Outcome State Fault Refusal := runCommand s (decBlk .ctr (some .pkcs5) s)

/-- DEC.CTR.X923 (42_modes.md R199). -/
def execDecCtrX923 (s : State) : Host.Outcome State Fault Refusal := runCommand s (decBlk .ctr (some .x923) s)

/-- DEC.CTR.ISO7816 (42_modes.md R199). -/
def execDecCtrIso7816 (s : State) : Host.Outcome State Fault Refusal := runCommand s (decBlk .ctr (some .iso7816) s)

/-- DEC.CTR.ISO10126 (42_modes.md R199). -/
def execDecCtrIso10126 (s : State) : Host.Outcome State Fault Refusal := runCommand s (decBlk .ctr (some .iso10126) s)

end Sys2Proof.Machine
end

