-- ==== Sys2Proof/Machine/Dispatch.lean ====
section
/-! DEFINITION. What each command does: one arm per constructor of Instr (30_encoding.md R80). -/

namespace Sys2Proof.Machine

def exec (i : Instr) (s : State) : Host.Outcome State Fault Refusal :=
  match i with
  -- PAD
  | .padZero => Sys2Proof.Machine.execPadZero s
  | .padBit => Sys2Proof.Machine.execPadBit s
  | .padPkcs7 => Sys2Proof.Machine.execPadPkcs7 s
  | .padPkcs5 => Sys2Proof.Machine.execPadPkcs5 s
  | .padX923 => Sys2Proof.Machine.execPadX923 s
  | .padIso7816 => Sys2Proof.Machine.execPadIso7816 s
  | .padIso10126 => Sys2Proof.Machine.execPadIso10126 s
  -- UNPAD
  | .unpadZero => Sys2Proof.Machine.execUnpadZero s
  | .unpadBit => Sys2Proof.Machine.execUnpadBit s
  | .unpadPkcs7 => Sys2Proof.Machine.execUnpadPkcs7 s
  | .unpadPkcs5 => Sys2Proof.Machine.execUnpadPkcs5 s
  | .unpadX923 => Sys2Proof.Machine.execUnpadX923 s
  | .unpadIso7816 => Sys2Proof.Machine.execUnpadIso7816 s
  | .unpadIso10126 => Sys2Proof.Machine.execUnpadIso10126 s
  -- VAL
  | .valKeysize => Sys2Proof.Machine.execValKeysize s
  | .valBlocksize => Sys2Proof.Machine.execValBlocksize s
  | .valIvsize => Sys2Proof.Machine.execValIvsize s
  | .valIveq => Sys2Proof.Machine.execValIveq s
  | .valCiphertext => Sys2Proof.Machine.execValCiphertext s
  | .valStdnonce => Sys2Proof.Machine.execValStdnonce s
  | .valNoncesize => Sys2Proof.Machine.execValNoncesize s
  | .valTagsize => Sys2Proof.Machine.execValTagsize s
  | .valDatasize => Sys2Proof.Machine.execValDatasize s
  | .valEmpty => Sys2Proof.Machine.execValEmpty s
  -- ENC.ECB
  | .encEcbNone => Sys2Proof.Machine.execEncEcbNone s
  | .encEcbZero => Sys2Proof.Machine.execEncEcbZero s
  | .encEcbBit => Sys2Proof.Machine.execEncEcbBit s
  | .encEcbPkcs7 => Sys2Proof.Machine.execEncEcbPkcs7 s
  | .encEcbPkcs5 => Sys2Proof.Machine.execEncEcbPkcs5 s
  | .encEcbX923 => Sys2Proof.Machine.execEncEcbX923 s
  | .encEcbIso7816 => Sys2Proof.Machine.execEncEcbIso7816 s
  | .encEcbIso10126 => Sys2Proof.Machine.execEncEcbIso10126 s
  -- DEC.ECB
  | .decEcbNone => Sys2Proof.Machine.execDecEcbNone s
  | .decEcbZero => Sys2Proof.Machine.execDecEcbZero s
  | .decEcbBit => Sys2Proof.Machine.execDecEcbBit s
  | .decEcbPkcs7 => Sys2Proof.Machine.execDecEcbPkcs7 s
  | .decEcbPkcs5 => Sys2Proof.Machine.execDecEcbPkcs5 s
  | .decEcbX923 => Sys2Proof.Machine.execDecEcbX923 s
  | .decEcbIso7816 => Sys2Proof.Machine.execDecEcbIso7816 s
  | .decEcbIso10126 => Sys2Proof.Machine.execDecEcbIso10126 s
  -- ENC.CBC
  | .encCbcNone => Sys2Proof.Machine.execEncCbcNone s
  | .encCbcZero => Sys2Proof.Machine.execEncCbcZero s
  | .encCbcBit => Sys2Proof.Machine.execEncCbcBit s
  | .encCbcPkcs7 => Sys2Proof.Machine.execEncCbcPkcs7 s
  | .encCbcPkcs5 => Sys2Proof.Machine.execEncCbcPkcs5 s
  | .encCbcX923 => Sys2Proof.Machine.execEncCbcX923 s
  | .encCbcIso7816 => Sys2Proof.Machine.execEncCbcIso7816 s
  | .encCbcIso10126 => Sys2Proof.Machine.execEncCbcIso10126 s
  -- DEC.CBC
  | .decCbcNone => Sys2Proof.Machine.execDecCbcNone s
  | .decCbcZero => Sys2Proof.Machine.execDecCbcZero s
  | .decCbcBit => Sys2Proof.Machine.execDecCbcBit s
  | .decCbcPkcs7 => Sys2Proof.Machine.execDecCbcPkcs7 s
  | .decCbcPkcs5 => Sys2Proof.Machine.execDecCbcPkcs5 s
  | .decCbcX923 => Sys2Proof.Machine.execDecCbcX923 s
  | .decCbcIso7816 => Sys2Proof.Machine.execDecCbcIso7816 s
  | .decCbcIso10126 => Sys2Proof.Machine.execDecCbcIso10126 s
  -- ENC.CFB
  | .encCfbNone => Sys2Proof.Machine.execEncCfbNone s
  | .encCfbZero => Sys2Proof.Machine.execEncCfbZero s
  | .encCfbBit => Sys2Proof.Machine.execEncCfbBit s
  | .encCfbPkcs7 => Sys2Proof.Machine.execEncCfbPkcs7 s
  | .encCfbPkcs5 => Sys2Proof.Machine.execEncCfbPkcs5 s
  | .encCfbX923 => Sys2Proof.Machine.execEncCfbX923 s
  | .encCfbIso7816 => Sys2Proof.Machine.execEncCfbIso7816 s
  | .encCfbIso10126 => Sys2Proof.Machine.execEncCfbIso10126 s
  -- DEC.CFB
  | .decCfbNone => Sys2Proof.Machine.execDecCfbNone s
  | .decCfbZero => Sys2Proof.Machine.execDecCfbZero s
  | .decCfbBit => Sys2Proof.Machine.execDecCfbBit s
  | .decCfbPkcs7 => Sys2Proof.Machine.execDecCfbPkcs7 s
  | .decCfbPkcs5 => Sys2Proof.Machine.execDecCfbPkcs5 s
  | .decCfbX923 => Sys2Proof.Machine.execDecCfbX923 s
  | .decCfbIso7816 => Sys2Proof.Machine.execDecCfbIso7816 s
  | .decCfbIso10126 => Sys2Proof.Machine.execDecCfbIso10126 s
  -- ENC.OFB
  | .encOfbNone => Sys2Proof.Machine.execEncOfbNone s
  | .encOfbZero => Sys2Proof.Machine.execEncOfbZero s
  | .encOfbBit => Sys2Proof.Machine.execEncOfbBit s
  | .encOfbPkcs7 => Sys2Proof.Machine.execEncOfbPkcs7 s
  | .encOfbPkcs5 => Sys2Proof.Machine.execEncOfbPkcs5 s
  | .encOfbX923 => Sys2Proof.Machine.execEncOfbX923 s
  | .encOfbIso7816 => Sys2Proof.Machine.execEncOfbIso7816 s
  | .encOfbIso10126 => Sys2Proof.Machine.execEncOfbIso10126 s
  -- DEC.OFB
  | .decOfbNone => Sys2Proof.Machine.execDecOfbNone s
  | .decOfbZero => Sys2Proof.Machine.execDecOfbZero s
  | .decOfbBit => Sys2Proof.Machine.execDecOfbBit s
  | .decOfbPkcs7 => Sys2Proof.Machine.execDecOfbPkcs7 s
  | .decOfbPkcs5 => Sys2Proof.Machine.execDecOfbPkcs5 s
  | .decOfbX923 => Sys2Proof.Machine.execDecOfbX923 s
  | .decOfbIso7816 => Sys2Proof.Machine.execDecOfbIso7816 s
  | .decOfbIso10126 => Sys2Proof.Machine.execDecOfbIso10126 s
  -- ENC.CTR
  | .encCtrNone => Sys2Proof.Machine.execEncCtrNone s
  | .encCtrZero => Sys2Proof.Machine.execEncCtrZero s
  | .encCtrBit => Sys2Proof.Machine.execEncCtrBit s
  | .encCtrPkcs7 => Sys2Proof.Machine.execEncCtrPkcs7 s
  | .encCtrPkcs5 => Sys2Proof.Machine.execEncCtrPkcs5 s
  | .encCtrX923 => Sys2Proof.Machine.execEncCtrX923 s
  | .encCtrIso7816 => Sys2Proof.Machine.execEncCtrIso7816 s
  | .encCtrIso10126 => Sys2Proof.Machine.execEncCtrIso10126 s
  -- DEC.CTR
  | .decCtrNone => Sys2Proof.Machine.execDecCtrNone s
  | .decCtrZero => Sys2Proof.Machine.execDecCtrZero s
  | .decCtrBit => Sys2Proof.Machine.execDecCtrBit s
  | .decCtrPkcs7 => Sys2Proof.Machine.execDecCtrPkcs7 s
  | .decCtrPkcs5 => Sys2Proof.Machine.execDecCtrPkcs5 s
  | .decCtrX923 => Sys2Proof.Machine.execDecCtrX923 s
  | .decCtrIso7816 => Sys2Proof.Machine.execDecCtrIso7816 s
  | .decCtrIso10126 => Sys2Proof.Machine.execDecCtrIso10126 s
  -- GCM
  | .encGcmStd => Sys2Proof.Machine.execEncGcmStd s
  | .decGcmStd => Sys2Proof.Machine.execDecGcmStd s
  | .encGcmNonce => Sys2Proof.Machine.execEncGcmNonce s
  | .decGcmNonce => Sys2Proof.Machine.execDecGcmNonce s
  | .encGcmTag => Sys2Proof.Machine.execEncGcmTag s
  | .decGcmTag => Sys2Proof.Machine.execDecGcmTag s

end Sys2Proof.Machine
end

