-- ==== Sys2Proof/Machine/Step.lean ====
section
/-! DEFINITION. One step: one move of one agent (10_state.md R20). -/

namespace Sys2Proof.Machine

/-- The sequencer's move (10_state.md R40): while Busy it runs the latched command on its operands and
the answers it has had; an illegal word is a command that fails (30_encoding.md R78). While Idle it does
nothing. -/
def sequencerStep (s : State) : Host.Outcome State Fault Refusal :=
  if s.busy then
    match decode s.latched with
    | .ok i => exec i s
    | .error _ => illegalCommand s
  else .next s

/-- One step: the agent whose turn is first moves; with no turn listed, the sequencer does. Log 2. -/
def step (s : State) : Host.Outcome State Fault Refusal :=
  match s.turns with
  | [] => sequencerStep s
  | .sequencer :: ts => sequencerStep { s with turns := ts }
  | .host a :: ts => busAccess a { s with turns := ts }
  | .collaborator k a :: ts => answerArrives { s with turns := ts } k a
  | .reset :: ts => .next (resetEvent { s with turns := ts })

/-- The state in which the command word `w` has just been accepted (10_state.md R23) and the sequencer's
turn is next, so that the very next step runs it. Log 12. -/
def State.withFetchWord (s : State) (nbits w : Nat) : State :=
  { accept s (BitVec.ofNat 32 (w % 2 ^ nbits)) with turns := .sequencer :: s.turns }

end Sys2Proof.Machine
end

