-- ==== Sys2Proof/Machine/HostProgram.lean ====
section
/-! DEFINITION. The host program syntax (30_encoding.md R85) and its expansion into bus accesses. -/

namespace Sys2Proof.Machine

/-- The buffers `LOAD` takes (30_encoding.md R85). -/
inductive LoadBuf where
  | input | key | iv | aad
  deriving DecidableEq, Repr

/-- The 64-bit registers `WR64` takes, as their low halves (30_encoding.md R85, 10_state.md section 3). -/
inductive Reg64 where
  | arg0 | arg1 | inLen | keyLen | ivLen | aadLen
  deriving DecidableEq, Repr

/-- One line of a host program (30_encoding.md R85). -/
inductive HostAction where
  | wr (r : Reg) (v : Word)
  | wr64 (r : Reg64) (v : DWord)
  | rd (r : Reg)
  | issue (i : Instr)
  | issueWord (w : Word)
  | load (b : LoadBuf) (bytes : Bytes)
  | poll
  | ack
  | rdbufOut (n : Nat)
  deriving DecidableEq, Repr

/-- The `_LO` half of a 64-bit register. -/
def Reg64.lo : Reg64 → Reg
  | .arg0 => .arg0Lo | .arg1 => .arg1Lo | .inLen => .inLenLo | .keyLen => .keyLenLo
  | .ivLen => .ivLenLo | .aadLen => .aadLenLo

/-- The `_HI` half of a 64-bit register. -/
def Reg64.hi : Reg64 → Reg
  | .arg0 => .arg0Hi | .arg1 => .arg1Hi | .inLen => .inLenHi | .keyLen => .keyLenHi
  | .ivLen => .ivLenHi | .aadLen => .aadLenHi

/-- The buffer of a `LOAD`. -/
def LoadBuf.buf : LoadBuf → Buf
  | .input => .input | .key => .key | .iv => .iv | .aad => .aad

/-- The length register a `LOAD` writes. -/
def LoadBuf.lenReg : LoadBuf → Reg64
  | .input => .inLen | .key => .keyLen | .iv => .ivLen | .aad => .aadLen

/-- The little-endian word of the first four bytes, a missing byte being 0x00 (30_encoding.md R85). -/
def leWord (b : Bytes) : Word := b.getD 3 0 ++ b.getD 2 0 ++ b.getD 1 0 ++ b.getD 0 0

/-- A 32-bit write at an offset from BASE. -/
def writeAt (base off : Nat) (v : Word) : Access := ⟨base + off, .word, .write v⟩

/-- A 32-bit read at an offset from BASE. -/
def readAt (base off : Nat) : Access := ⟨base + off, .word, .read⟩

/-- The word writes of a `LOAD`, for the words numbered `k` on (30_encoding.md R85). -/
def loadWords (base off : Nat) (bytes : Bytes) : Nat → Nat → List Access
  | _, 0 => []
  | k, n + 1 =>
    writeAt base (off + 4 * k) (leWord (bytes.drop (4 * k))) :: loadWords base off bytes (k + 1) n

/-- `WR64` (30_encoding.md R85). -/
def write64 (base : Nat) (r : Reg64) (v : DWord) : List Access :=
  [writeAt base r.lo.offset (loHalf v), writeAt base r.hi.offset (hiHalf v)]

/-- The bus accesses of one line (30_encoding.md R85). `POLL` is a loop of the host, whose control flow is
not PADMODE's: this is one pass of it. Log 15. -/
def HostAction.expand (base : Nat) : HostAction → List Access
  | .wr r v => [writeAt base r.offset v]
  | .wr64 r v => write64 base r v
  | .rd r => [readAt base r.offset]
  | .issue i => [writeAt base Reg.cmd.offset (encode i)]
  | .issueWord w => [writeAt base Reg.cmd.offset w]
  | .load b bytes =>
    loadWords base b.buf.base bytes 0 ((bytes.length + 3) / 4) ++
      write64 base b.lenReg (BitVec.ofNat 64 bytes.length)
  | .poll => [readAt base Reg.status.offset]
  | .ack => [writeAt base Reg.status.offset 0x00000002]
  | .rdbufOut n => (List.range ((n + 3) / 4)).map fun k => readAt base (Buf.base .output + 4 * k)

/-- The host's turns for one line. -/
def HostAction.turns (base : Nat) (a : HostAction) : List Turn := (a.expand base).map .host

end Sys2Proof.Machine
end

