-- ==== Sys2Proof/Safety.lean ====
section
/-! DEFINITION. What counts as a good state, and which operands a command may read, in the terms the claims use. -/

namespace Sys2Proof.Machine

/-- BUF_CAP lies in its range (00_scope.md R9). -/
abbrev paramsLegal (p : Config.Params) : Prop := 64 ≤ p.bufCap ∧ p.bufCap ≤ 2 ^ 28

/-- The answers of a transcript keep the collaborators' laws: each is of the kind and length its request
has, and any two agree (42_modes.md R208, R209). -/
def transcriptLawful (l : List Answered) : Prop :=
  ∀ x ∈ l, x.request.fits x.answer = true ∧ ∀ y ∈ l, x.agrees y = true

/-- The invariant of PADMODE: what every step keeps (10_state.md R34, R37, R40, R41; 42_modes.md R208,
R209; 60_exceptions.md R242 to R244). -/
structure Inv (s : State) : Prop where
  /-- BUF_CAP lies in its range. -/
  params      : paramsLegal s.params
  /-- The byte storage has its canonical form. -/
  memWf       : s.mem.wf = true
  /-- Every written byte is a byte of one of the five buffers. -/
  memPlaced   : ∀ c ∈ s.mem, 1 ≤ regionOf c.1 ∧ regionOf c.1 ≤ 5 ∧ withinRegion c.1 < s.params.bufCap
  /-- The output of the last command fits OUTBUF. -/
  outFits     : s.outLen.toNat ≤ s.params.bufCap
  /-- Every readable OUTBUF byte is one a command wrote. -/
  outWritten  : ∀ k, k < s.outLen.toNat → (s.mem.read (Buf.base .output + k)).isSome = true
  /-- While Idle there is no outstanding request and no answer kept. -/
  idleQuiet   : s.busy = false → s.pending = none ∧ s.answers = []
  /-- BUSY and DONE are never both set. -/
  busyNotDone : s.busy = true → s.done = false
  /-- After a failure no output is readable. -/
  errNoOutput : s.err ≠ .ok → s.outLen = 0
  /-- After a success there is no payload. -/
  okNoPayload : s.err = .ok → s.errarg = 0
  /-- Every answer kept can be the answer to its request. -/
  answersFit  : ∀ x ∈ s.answers, x.request.fits x.answer = true
  /-- The outstanding request has been issued, under a number of its own. -/
  ticketUsed  : ∀ o, s.pending = some o → o.ticket < s.tickets
  /-- What the collaborators have answered keeps their laws. -/
  lawsKept    : transcriptLawful s.transcript
  /-- The answers of the running command are among those. -/
  answersKept : ∀ x ∈ s.answers, x ∈ s.transcript

/-- The operands of commands (30_encoding.md R79). -/
inductive Operand where
  | inLen | keyLen | ivLen | aadLen | blksz | tagsz | arg0 | arg1 | inBuf | keyBuf | ivBuf | aadBuf
  deriving DecidableEq, Repr

/-- The operands a command reads beyond its command word (30_encoding.md R79). -/
def operandsRead (i : Instr) : List Operand :=
  match i.command with
  | .pad .pkcs5 | .unpad .pkcs5 => [.inLen, .inBuf]
  | .pad _ | .unpad _ => [.inLen, .blksz, .inBuf]
  | .val .iveq | .val .ciphertext | .val .datasize => [.arg0, .arg1]
  | .val _ => [.arg0]
  | .enc .ecb _ | .dec .ecb _ => [.inLen, .keyLen, .inBuf, .keyBuf]
  | .enc _ _ | .dec _ _ => [.inLen, .keyLen, .ivLen, .inBuf, .keyBuf, .ivBuf]
  | .encGcm .tag | .decGcm .tag =>
    [.inLen, .keyLen, .ivLen, .aadLen, .tagsz, .inBuf, .keyBuf, .ivBuf, .aadBuf]
  | .encGcm _ | .decGcm _ => [.inLen, .keyLen, .ivLen, .aadLen, .inBuf, .keyBuf, .ivBuf, .aadBuf]

/-- Two states agree on an operand; a buffer operand is its view (10_state.md R39). -/
def Operand.same (o : Operand) (s t : State) : Prop :=
  match o with
  | .inLen => s.inLen = t.inLen
  | .keyLen => s.keyLen = t.keyLen
  | .ivLen => s.ivLen = t.ivLen
  | .aadLen => s.aadLen = t.aadLen
  | .blksz => s.blksz = t.blksz
  | .tagsz => s.tagsz = t.tagsz
  | .arg0 => s.arg0 = t.arg0
  | .arg1 => s.arg1 = t.arg1
  | .inBuf => s.inBytes = t.inBytes
  | .keyBuf => s.keyBytes = t.keyBytes
  | .ivBuf => s.ivBytes = t.ivBytes
  | .aadBuf => s.aadBytes = t.aadBytes

/-! ### The collaborators -/

/-- The sizes {16, 24, 32} (00_scope.md R8). -/
abbrev isAesSize (n : Nat) : Prop := n = 16 ∨ n = 24 ∨ n = 32

/-- The requests the ports have, with the ranges of their arguments (60_exceptions.md R251). -/
def Request.legal : Request → Prop
  | .cipherInit k => isAesSize k.length
  | .encryptBlock k x | .decryptBlock k x => isAesSize k.length ∧ x.length = 16
  | .aeadInit n t => 1 ≤ n ∧ 12 ≤ t ∧ t ≤ 16
  | .sealData t k n _ _ => 12 ≤ t ∧ t ≤ 16 ∧ isAesSize k.length ∧ 1 ≤ n.length
  | .openData t k n c _ => 12 ≤ t ∧ t ≤ 16 ∧ isAesSize k.length ∧ 1 ≤ n.length ∧ t ≤ c.length
  | .rngFill k => 1 ≤ k ∧ k ≤ 254

/-- The move of the sequencer, whatever turns are listed. -/
def State.sequencerMoves (s : State) : Host.Outcome State Fault Refusal := step { s with turns := [.sequencer] }

/-- One round in which the collaborators answer: the sequencer moves, and if a request is then
outstanding it is answered as `f` says (70_reset_and_hazards.md R281). -/
def answeredRound (f : State → Answer) (s : State) : State :=
  match s.sequencerMoves with
  | .next t =>
    match t.pending with
    | none => t
    | some o =>
      match step { t with turns := [.collaborator o.ticket (f t)] } with
      | .next u => u
      | _ => t
  | _ => s

/-- `n` rounds of `answeredRound`. -/
def answeredRounds (f : State → Answer) : Nat → State → State
  | 0, s => s
  | n + 1, s => answeredRounds f n (answeredRound f s)

/-- In rounds from `s` on, `f` answers every request within the collaborators' laws. -/
def answersLawfully (f : State → Answer) (s : State) : Prop :=
  ∀ n t o, (answeredRounds f n s).sequencerMoves = .next t → t.pending = some o →
    lawfulAnswer t.transcript o.request (f t) = true

/-! ### The spec's closed forms the claims are written with -/

/-- The table of 40_padding.md R102 with the randomness source's answer `r` as an argument. -/
def trailerBytes (sch : Scheme) (ov : Nat) (r : Bytes) : Bytes :=
  match sch with
  | .zero => List.replicate ov 0x00
  | .bit | .iso7816 => 0x80 :: List.replicate (ov - 1) 0x00
  | .pkcs7 | .pkcs5 => List.replicate ov (BitVec.ofNat 8 ov)
  | .x923 => List.replicate (ov - 1) 0x00 ++ [BitVec.ofNat 8 ov]
  | .iso10126 => if ov = 1 then [0x01] else r ++ [BitVec.ofNat 8 ov]

/-- The block size of the padding of ENC and DEC: 8 for PKCS5, 16 for the others (40_padding.md R101). -/
def modePadSize : Scheme → Nat
  | .pkcs5 => 8
  | .zero | .bit | .pkcs7 | .x923 | .iso7816 | .iso10126 => 16

/-- The overhead of the padding of ENC: none for NONE (42_modes.md R186, 40_padding.md R100). -/
def modeOvh (sch : Option Scheme) (n : Nat) : Nat :=
  match sch with
  | none => 0
  | some k => modePadSize k - n % modePadSize k

/-- What ENC encrypts: IN and the trailer (42_modes.md R186). -/
def modeInput (sch : Option Scheme) (s : State) (r : Bytes) : Bytes :=
  match sch with
  | none => s.inBytes
  | some k => s.inBytes ++ trailerBytes k (modeOvh sch s.inLen.toNat) r

/-- The sequencer moves next, and then the turns `ts`. -/
def State.sequencerNext (s : State) (ts : List Turn) : Prop :=
  s.turns = .sequencer :: ts ∨ (s.turns = [] ∧ ts = [])

/-! ### The bus and the command word as the claims read them -/

/-- The next move is a host's access of width `w` at offset `off` from BASE, and after it come the turns
`ts`. -/
def State.hostNext (s : State) (off : Nat) (w : Width) (k : AccessKind) (ts : List Turn) : Prop :=
  off < 2 ^ 32 ∧ s.turns = .host ⟨s.params.base + off, w, k⟩ :: ts

/-- The accesses of 20_memory.md R53: 32 bits at a multiple of 4, and outside the register region also 8
bits, and 16 bits at a multiple of 2. -/
def legalAccess (off : Nat) (w : Width) : Prop :=
  (w = .word ∧ off % 4 = 0) ∨ (2 ^ 28 ≤ off ∧ (w = .byte ∨ (w = .half ∧ off % 2 = 0)))

/-- The registers as they read while Idle: offset and value (10_state.md R23 to R32). -/
def registerValues (s : State) : List (Nat × Word) :=
  [(0x000, s.cmd),
   (0x004, BitVec.ofNat 32 (s.busy.toNat + 2 * s.done.toNat + 4 * s.busywr.toNat + 256 * s.err.byte.toNat)),
   (0x008, BitVec.ofNat 32 s.ie.toNat), (0x00C, BitVec.ofNat 32 s.blksz.toNat),
   (0x010, BitVec.ofNat 32 s.tagsz.toNat), (0x014, BitVec.ofNat 32 s.params.bufCap),
   (0x018, BitVec.ofNat 32 (s.errarg.toNat % 2 ^ 32)), (0x01C, BitVec.ofNat 32 (s.errarg.toNat / 2 ^ 32)),
   (0x020, BitVec.ofNat 32 (s.arg0.toNat % 2 ^ 32)), (0x024, BitVec.ofNat 32 (s.arg0.toNat / 2 ^ 32)),
   (0x028, BitVec.ofNat 32 (s.arg1.toNat % 2 ^ 32)), (0x02C, BitVec.ofNat 32 (s.arg1.toNat / 2 ^ 32)),
   (0x030, BitVec.ofNat 32 (s.inLen.toNat % 2 ^ 32)), (0x034, BitVec.ofNat 32 (s.inLen.toNat / 2 ^ 32)),
   (0x038, BitVec.ofNat 32 (s.keyLen.toNat % 2 ^ 32)), (0x03C, BitVec.ofNat 32 (s.keyLen.toNat / 2 ^ 32)),
   (0x040, BitVec.ofNat 32 (s.ivLen.toNat % 2 ^ 32)), (0x044, BitVec.ofNat 32 (s.ivLen.toNat / 2 ^ 32)),
   (0x048, BitVec.ofNat 32 (s.aadLen.toNat % 2 ^ 32)), (0x04C, BitVec.ofNat 32 (s.aadLen.toNat / 2 ^ 32)),
   (0x050, BitVec.ofNat 32 (s.outLen.toNat % 2 ^ 32)), (0x054, BitVec.ofNat 32 (s.outLen.toNat / 2 ^ 32))]

/-- The offsets whose reads are results: ERRARG and OUT_LEN (70_reset_and_hazards.md R275; ERR is a field of
STATUS). -/
def resultOffsets : List Nat := [0x018, 0x01C, 0x050, 0x054]

/-- A 64-bit value with its bits[31:0] replaced (20_memory.md R55). -/
def withLow (d : DWord) (v : Word) : DWord := BitVec.ofNat 64 (d.toNat / 2 ^ 32 * 2 ^ 32 + v.toNat)

/-- A 64-bit value with its bits[63:32] replaced (20_memory.md R55). -/
def withHigh (d : DWord) (v : Word) : DWord := BitVec.ofNat 64 (v.toNat * 2 ^ 32 + d.toNat % 2 ^ 32)

/-- What a write of `v` while Idle makes of the registers other than CMD: offset and the state after
(10_state.md R24 to R32). -/
def registerWrites (s : State) (v : Word) : List (Nat × State) :=
  [(0x004, { s with done := s.done && !v.getLsbD 1, busywr := s.busywr && !v.getLsbD 2 }),
   (0x008, { s with ie := v.getLsbD 0 }), (0x00C, { s with blksz := BitVec.ofNat 8 v.toNat }),
   (0x010, { s with tagsz := BitVec.ofNat 8 v.toNat }), (0x014, s), (0x018, s), (0x01C, s),
   (0x020, { s with arg0 := withLow s.arg0 v }), (0x024, { s with arg0 := withHigh s.arg0 v }),
   (0x028, { s with arg1 := withLow s.arg1 v }), (0x02C, { s with arg1 := withHigh s.arg1 v }),
   (0x030, { s with inLen := withLow s.inLen v }), (0x034, { s with inLen := withHigh s.inLen v }),
   (0x038, { s with keyLen := withLow s.keyLen v }), (0x03C, { s with keyLen := withHigh s.keyLen v }),
   (0x040, { s with ivLen := withLow s.ivLen v }), (0x044, { s with ivLen := withHigh s.ivLen v }),
   (0x048, { s with aadLen := withLow s.aadLen v }), (0x04C, { s with aadLen := withHigh s.aadLen v }),
   (0x050, s), (0x054, s)]

/-- `Legal(w)` on the bits of a word (30_encoding.md R77). -/
def legalWord (w : Word) : Prop :=
  (w.extractLsb' 14 2 = 0 ∧ w.extractLsb' 20 12 = 0) ∧
  (((w.extractLsb' 0 4 = 1 ∨ w.extractLsb' 0 4 = 2) ∧ 1 ≤ (w.extractLsb' 4 4).toNat ∧
      (w.extractLsb' 4 4).toNat ≤ 7 ∧ w.extractLsb' 8 4 = 0 ∧ w.extractLsb' 12 2 = 0 ∧ w.extractLsb' 16 4 = 0) ∨
   (w.extractLsb' 0 4 = 3 ∧ w.extractLsb' 4 4 = 0 ∧ w.extractLsb' 8 4 = 0 ∧ w.extractLsb' 12 2 = 0 ∧
      (w.extractLsb' 16 4).toNat ≤ 9) ∨
   ((w.extractLsb' 0 4 = 4 ∨ w.extractLsb' 0 4 = 5) ∧ (w.extractLsb' 8 4).toNat ≤ 4 ∧
      (w.extractLsb' 4 4).toNat ≤ 7 ∧ w.extractLsb' 12 2 = 0 ∧ w.extractLsb' 16 4 = 0) ∨
   ((w.extractLsb' 0 4 = 4 ∨ w.extractLsb' 0 4 = 5) ∧ w.extractLsb' 8 4 = 5 ∧ w.extractLsb' 4 4 = 0 ∧
      (w.extractLsb' 12 2).toNat ≤ 2 ∧ w.extractLsb' 16 4 = 0))

/-! ### The conditions the claims about commands share -/

/-- The padding block size B of a PAD or UNPAD command (40_padding.md R101). -/
def padSize (k : Scheme) (s : State) : Nat := if k = .pkcs5 then 8 else s.blksz.toNat

/-- The overhead of a PAD command (40_padding.md R100). -/
def padOvh (k : Scheme) (s : State) : Nat := padSize k s - s.inLen.toNat % padSize k s

/-- UNPAD gets as far as the trailer (40_padding.md R112). -/
def unpadReady (k : Scheme) (s : State) : Prop :=
  s.inLen.toNat ≠ 0 ∧ padSize k s ≠ 0 ∧ s.inLen.toNat % padSize k s = 0 ∧ s.inLen.toNat ≤ s.params.bufCap

/-- The checks of a non-GCM command before the cipher is constructed pass (42_modes.md R186, R187). -/
def modeValid (m : BMode) (s : State) : Prop :=
  s.inLen.toNat ≠ 0 ∧ isAesSize s.keyLen.toNat ∧ (m = .ecb ∨ s.ivLen.toNat = 16)

/-- ... and the cipher is constructed. -/
def modeReady (m : BMode) (s : State) : Prop :=
  modeValid m s ∧ s.ask (.cipherInit s.keyBytes) = some .ok

/-- The block request decryption makes (42_modes.md R212). -/
def decBlockRequest (m : BMode) (key x : Bytes) : Request :=
  if m = .ecb ∨ m = .cbc then .decryptBlock key x else .encryptBlock key x

/-- The tag size of a GCM command (42_modes.md R188). -/
def gcmTag (v : GVar) (s : State) : Nat := if v = .tag then s.tagsz.toNat else 16

/-- The nonce check of a GCM command passes (42_modes.md R188). -/
def nonceOk (v : GVar) (n : Nat) : Prop := if v = .nonce then n ≠ 0 else n = 12

/-- The checks of a GCM command before the cipher is constructed pass (42_modes.md R188, R189). -/
def gcmValid (v : GVar) (s : State) : Prop :=
  s.inLen.toNat ≠ 0 ∧ isAesSize s.keyLen.toNat ∧ nonceOk v s.ivLen.toNat ∧ 12 ≤ gcmTag v s ∧ gcmTag v s ≤ 16

/-- ... and the cipher and the AEAD are constructed. -/
def gcmReady (v : GVar) (s : State) : Prop :=
  gcmValid v s ∧ s.ask (.cipherInit s.keyBytes) = some .ok ∧
    s.ask (.aeadInit s.ivLen.toNat (gcmTag v s)) = some .ok

/-- The lengths of a GCM command that fit the buffers (60_exceptions.md R245). -/
def gcmFits (s : State) : Prop :=
  s.inLen.toNat ≤ s.params.bufCap ∧ s.ivLen.toNat ≤ s.params.bufCap ∧ s.aadLen.toNat ≤ s.params.bufCap

/-- Two GCM commands have the same key, nonce, additional data and tag size (42_modes.md R201, R205, R208). -/
def sameContext (v : GVar) (s : State) (v' : GVar) (u : State) : Prop :=
  u.keyBytes = s.keyBytes ∧ u.ivBytes = s.ivBytes ∧ u.aadBytes = s.aadBytes ∧ gcmTag v' u = gcmTag v s

/-- Everything but the result registers, OUTBUF and the run of the command is as it was
(10_state.md R35). -/
def sameOperands (s t : State) : Prop :=
  t.params = s.params ∧ t.cmd = s.cmd ∧ t.busywr = s.busywr ∧ t.ie = s.ie ∧ t.blksz = s.blksz ∧
  t.tagsz = s.tagsz ∧ t.arg0 = s.arg0 ∧ t.arg1 = s.arg1 ∧ t.inLen = s.inLen ∧ t.keyLen = s.keyLen ∧
  t.ivLen = s.ivLen ∧ t.aadLen = s.aadLen ∧ t.turns = s.turns ∧ t.reply = s.reply ∧ t.draws = s.draws ∧
  t.epoch = s.epoch ∧ t.transcript = s.transcript

end Sys2Proof.Machine
end

