-- ==== Sys2Proof/Certificates/Slice0/Obligations.lean ====
section
/-! DEFINITION. The statements for the provers. Each docstring names the rule it formalises. -/

section

open Sys2Proof Sys2Proof.Machine

/-! ### Reset, steps and decoding -/

/-- 70_reset_and_hazards.md R272: the reset state, and the result of a command issued right after reset.
The contents of the input buffers are draws (log 9). -/
def Obligations.ResetState : Prop :=
  State.reset.cmd = 0 ∧ State.reset.status = 0 ∧ State.reset.busy = false ∧ State.reset.done = false ∧
  State.reset.busywr = false ∧ State.reset.err = .ok ∧ State.reset.ie = false ∧ State.reset.irq = false ∧
  State.reset.blksz = 0 ∧ State.reset.tagsz = 0 ∧
  readReg State.reset .bufcap = BitVec.ofNat 32 State.reset.params.bufCap ∧
  State.reset.errarg = 0 ∧ State.reset.arg0 = 0 ∧ State.reset.arg1 = 0 ∧ State.reset.inLen = 0 ∧
  State.reset.keyLen = 0 ∧ State.reset.ivLen = 0 ∧ State.reset.aadLen = 0 ∧ State.reset.outLen = 0 ∧
  (∀ k, State.reset.outByte k = 0) ∧ State.reset.pending = none ∧
  (∀ b k, State.reset.byteAt (Buf.base b + k) = Config.powerOnByte State.reset.epoch (Buf.base b + k)) ∧
  step State.reset = .next State.reset ∧
  (∀ i w, (∀ p, i.command ≠ .val p) →
    exec i (accept State.reset w) = .next (raiseErr (accept State.reset w) .emptyData 0)) ∧
  (∀ w, exec .valKeysize (accept State.reset w) = .next (raiseErr (accept State.reset w) .invalidKeySize 0) ∧
    exec .valBlocksize (accept State.reset w) = .next (raiseErr (accept State.reset w) .invalidBlockSize 0) ∧
    exec .valIvsize (accept State.reset w) = .next (raiseErr (accept State.reset w) .invalidIvSize 0) ∧
    exec .valIveq (accept State.reset w) = .next (raiseErr (accept State.reset w) .invalidIvSize 0) ∧
    exec .valCiphertext (accept State.reset w) =
      .next (raiseErr (accept State.reset w) .invalidCiphertext 0) ∧
    exec .valStdnonce (accept State.reset w) = .next (raiseErr (accept State.reset w) .invalidNonceSize 0) ∧
    exec .valNoncesize (accept State.reset w) =
      .next (raiseErr (accept State.reset w) .invalidNonceSize 0) ∧
    exec .valTagsize (accept State.reset w) = .next (raiseErr (accept State.reset w) .invalidTagSize 0) ∧
    exec .valDatasize (accept State.reset w) = .next (finish (accept State.reset w) []) ∧
    exec .valEmpty (accept State.reset w) = .next (raiseErr (accept State.reset w) .emptyData 0))

/-- 70_reset_and_hazards.md R270, R271: reset at any time, in one step, to the reset state; the command
that ran leaves nothing behind. The parameters are not reset, the collaborators' past is theirs (log 18), and
the model's counters go on (log 5, log 9, log 10). -/
def Obligations.ResetEvent : Prop :=
  ∀ (s : State) (ts : List Turn), s.turns = .reset :: ts →
    step s = .next
      { State.reset with
        params     := s.params
        transcript := s.transcript
        turns      := ts
        draws      := s.draws
        epoch      := s.epoch + 1
        tickets    := s.tickets }

/-- 70_reset_and_hazards.md R271: an answer to a request that a reset abandoned is ignored, whatever
happens between. Requests are told apart by numbers, which are the model's (log 5). -/
def Obligations.AbandonedAnswerIgnored : Prop :=
  ∀ (s u : State) (o : Outstanding) (ts us : List Turn) (n : Nat) (a : Answer), Inv s →
    s.pending = some o → s.turns = .reset :: ts → Host.Core.run Sys2Proof.core (n + 1) s = .next u →
    u.turns = .collaborator o.ticket a :: us → step u = .next { u with turns := us }

/-- 10_state.md R40, 30_encoding.md R81: when it is the sequencer's turn, a step while Busy runs the
command the latched word decodes to, and a step while Idle does nothing. A word placed by withFetchWord is
run by the very next step (log 2, log 12). -/
def Obligations.StepRunsDecodedCommand : Prop :=
  (∀ (s : State) (i : Instr) (ts : List Turn), s.sequencerNext ts → s.busy = true →
    decode s.cmd = .ok i → step s = exec i { s with turns := ts }) ∧
  (∀ (s : State) (ts : List Turn), s.sequencerNext ts → s.busy = false →
    step s = .next { s with turns := ts }) ∧
  (∀ (s : State) (i : Instr), step (s.withFetchWord 32 (encode i).toNat) = exec i (accept s (encode i)))

/-- 30_encoding.md R78: an illegal word ends with ILLEGAL_COMMAND and the word as payload, and does
nothing else. -/
def Obligations.IllegalWordFails : Prop :=
  ∀ (s : State) (ts : List Turn), s.sequencerNext ts → s.busy = true → ¬ legalWord s.cmd →
    step s = .next
      { s with
        turns   := ts
        outLen  := 0
        err     := .illegalCommand
        errarg  := s.cmd.setWidth 64
        done    := true
        busy    := false
        pending := none
        answers := [] }

/-- 30_encoding.md R80, R81: decoding and encoding agree on every word, for every command. -/
def Obligations.DecodeIffEncode : Prop :=
  ∀ (w : Word) (i : Instr), decode w = .ok i ↔ w = encode i

/-- 30_encoding.md R76, R77: the words that decode are exactly the legal ones. -/
def Obligations.DecodeIffLegal : Prop :=
  ∀ w : Word, (∃ i, decode w = .ok i) ↔ legalWord w

/-- 30_encoding.md R80: words of the command map, one or more of each family, written out from it. -/
def Obligations.DecodeTableSample : Prop :=
  decode 0x00000011 = .ok .padZero ∧ decode 0x00000071 = .ok .padIso10126 ∧
  decode 0x00000042 = .ok .unpadPkcs5 ∧ decode 0x00000062 = .ok .unpadIso7816 ∧
  decode 0x00030003 = .ok .valIveq ∧ decode 0x00090003 = .ok .valEmpty ∧
  decode 0x00000004 = .ok .encEcbNone ∧ decode 0x00000035 = .ok .decEcbPkcs7 ∧
  decode 0x00000154 = .ok .encCbcX923 ∧ decode 0x00000125 = .ok .decCbcBit ∧
  decode 0x00000274 = .ok .encCfbIso10126 ∧ decode 0x00000205 = .ok .decCfbNone ∧
  decode 0x00000314 = .ok .encOfbZero ∧ decode 0x00000365 = .ok .decOfbIso7816 ∧
  decode 0x00000444 = .ok .encCtrPkcs5 ∧ decode 0x00000475 = .ok .decCtrIso10126 ∧
  decode 0x00000504 = .ok .encGcmStd ∧ decode 0x00001505 = .ok .decGcmNonce ∧
  decode 0x00002504 = .ok .encGcmTag

/-! ### Bus accesses -/

/-- 10_state.md R23: a CMD write while Idle is accepted whole and starts a command; while Busy it is
ignored; a read returns the last accepted word; reset clears CMD and executes nothing. -/
def Obligations.CmdWriteAccepted : Prop :=
  (∀ (s : State) (w : Word) (ts : List Turn), s.busy = false → s.hostNext 0x000 .word (.write w) ts →
    step s = .next
      { s with
        turns   := ts
        cmd     := w
        busy    := true
        done    := false
        pending := none
        answers := []
        reply   := some .written }) ∧
  (∀ (s : State) (w : Word) (ts : List Turn), s.busy = true → s.hostNext 0x000 .word (.write w) ts →
    step s = .next { s with turns := ts, busywr := true, reply := some .written }) ∧
  (∀ (s : State) (ts : List Turn), s.hostNext 0x000 .word .read ts →
    ∃ t, step s = .next t ∧ t.reply = some (.data s.cmd) ∧ t.cmd = s.cmd) ∧
  State.reset.cmd = 0 ∧ step State.reset = .next State.reset

/-- 70_reset_and_hazards.md R274: a write while Busy, wherever it goes, only sets BUSYWR; one that gets a
bus error does not even do that. -/
def Obligations.BusyWriteOnlySetsBusywr : Prop :=
  ∀ (s : State) (off : Nat) (w : Width) (v : Word) (ts : List Turn), s.busy = true →
    s.hostNext off w (.write v) ts →
    (legalAccess off w → step s = .next { s with turns := ts, busywr := true, reply := some .written }) ∧
    (¬ legalAccess off w → s.params.busErrors = true →
      step s = .next { s with turns := ts, reply := some .busError })

/-- 70_reset_and_hazards.md R275: a read while Busy changes nothing of PADMODE and returns the value of
every field but the results; ERR, ERRARG, OUT_LEN and OUTBUF read as free values, and the reserved regions
as 0x00 (20_memory.md R51). That ERR, a result register and an OUTBUF byte read as the draw of that read is
the model's form of 'any value' (log 10). -/
def Obligations.BusyReads : Prop :=
  ∀ (s : State) (off : Nat) (w : Width) (ts : List Turn), s.busy = true → s.hostNext off w .read ts →
    legalAccess off w →
    ∃ v, step s = .next { s with turns := ts, draws := s.draws + 1, reply := some (.data v) } ∧
      (∀ x, (off, x) ∈ registerValues s → off ≠ 0x004 → off ∉ resultOffsets → v = x) ∧
      (off = 0x004 → v.getLsbD 0 = true ∧ v.getLsbD 1 = s.done ∧ v.getLsbD 2 = s.busywr ∧
        v.extractLsb' 3 5 = 0 ∧ v.extractLsb' 8 8 = (Config.freeWord s.draws).extractLsb' 0 8 ∧
        v.extractLsb' 16 16 = 0) ∧
      (off ∈ resultOffsets → v = Config.freeWord s.draws) ∧
      (∀ j, j < w.bytes → 1 ≤ off / 2 ^ 28 → off / 2 ^ 28 ≤ 4 →
        v.extractLsb' (8 * j) 8 = if off % 2 ^ 28 + j < s.params.bufCap then s.byteAt (off + j) else 0) ∧
      (∀ j, j < w.bytes → off / 2 ^ 28 = 5 →
        v.extractLsb' (8 * j) 8 =
          if off % 2 ^ 28 + j < s.params.bufCap then (Config.freeWord s.draws).extractLsb' (8 * j) 8 else 0) ∧
      (∀ j, j < w.bytes → 6 ≤ off / 2 ^ 28 → v.extractLsb' (8 * j) 8 = 0)

/-- 10_state.md R23 to R32: what each register reads as while Idle; a read has no side effect
(20_memory.md R57). -/
def Obligations.RegisterReads : Prop :=
  ∀ (s : State) (off : Nat) (v : Word) (ts : List Turn), s.busy = false → (off, v) ∈ registerValues s →
    s.hostNext off .word .read ts → step s = .next { s with turns := ts, reply := some (.data v) }

/-- 10_state.md R24 to R32, 20_memory.md R55: what a write while Idle does to each register but CMD, and
that it does nothing else. -/
def Obligations.RegisterWrites : Prop :=
  ∀ (s t : State) (off : Nat) (v : Word) (ts : List Turn), s.busy = false → (off, t) ∈ registerWrites s v →
    s.hostNext off .word (.write v) ts → step s = .next { t with turns := ts, reply := some .written }

/-- 60_exceptions.md R247, 10_state.md R43: the completion interrupt. Its pending bit is set at every
completion, successful or not, of an illegal word too, and by nothing else; CTRL.IE enables it and is the only
mask; a write of 1 to STATUS.DONE, the acceptance of a command and reset clear it. -/
def Obligations.CompletionInterrupt : Prop :=
  (∀ s : State, s.irq = true ↔ s.done = true ∧ s.ie = true) ∧
  (∀ (i : Instr) (s t : State), s.busy = true → exec i s = .next t → t.busy = false → t.done = true) ∧
  (∀ (s t : State) (ts : List Turn), s.sequencerNext ts → s.busy = true → step s = .next t →
    t.busy = false → t.done = true) ∧
  (∀ s t : State, step s = .next t → s.done = false → t.done = true →
    (∃ ts, s.sequencerNext ts) ∧ s.busy = true ∧ t.busy = false) ∧
  (∀ (s : State) (v : Word) (ts : List Turn), s.busy = false → s.hostNext 0x004 .word (.write v) ts →
    v.getLsbD 1 = true → ∃ t, step s = .next t ∧ t.done = false ∧ t.irq = false) ∧
  (∀ (s : State) (v : Word) (ts : List Turn), s.busy = false → s.hostNext 0x000 .word (.write v) ts →
    ∃ t, step s = .next t ∧ t.done = false ∧ t.irq = false) ∧
  (∀ (s : State) (ts : List Turn), s.turns = .reset :: ts →
    ∃ t, step s = .next t ∧ t.done = false ∧ t.irq = false) ∧
  (∀ (s : State) (v : Word) (ts : List Turn), s.busy = false → s.hostNext 0x008 .word (.write v) ts →
    ∃ t, step s = .next t ∧ t.done = s.done ∧ t.irq = (s.done && v.getLsbD 0))

/-- 20_memory.md R56: an access that breaks R53 gets a bus error response and changes no state; on a bus
that has none it is a fault of the host program. -/
def Obligations.IllegalAccessIsBusError : Prop :=
  ∀ (s : State) (off : Nat) (w : Width) (k : AccessKind) (ts : List Turn), s.hostNext off w k ts →
    ¬ legalAccess off w →
    (s.params.busErrors = true → step s = .next { s with turns := ts, reply := some .busError }) ∧
    (s.params.busErrors = false → step s = .fault .hostAccess)

/-- 10_state.md R33: reserved register offsets read as zero, at any time and with no other effect (a read
while Busy uses up a draw, log 10), and ignore writes. -/
def Obligations.ReservedRegisterOffsets : Prop :=
  ∀ (s : State) (off : Nat) (ts : List Turn), 0x058 ≤ off → off < 2 ^ 28 → off % 4 = 0 →
    (s.hostNext off .word .read ts → step s = .next
      { s with
        turns := ts
        reply := some (.data 0)
        draws := if s.busy then s.draws + 1 else s.draws }) ∧
    (∀ v, s.busy = false → s.hostNext off .word (.write v) ts →
      step s = .next { s with turns := ts, reply := some .written })

/-- 20_memory.md R51, R52, R54, 10_state.md R37: a read of a buffer or reserved region while Idle returns
its bytes little-endian: the buffer's byte below BUF_CAP (of OUTBUF, the output below OUT_LEN), 0x00 at
and above it and in the reserved regions; and it has no side effect. -/
def Obligations.BufferReads : Prop :=
  ∀ (s : State) (off : Nat) (w : Width) (ts : List Turn), s.busy = false → s.hostNext off w .read ts →
    legalAccess off w → 2 ^ 28 ≤ off →
    ∃ v, step s = .next { s with turns := ts, reply := some (.data v) } ∧
      ∀ j, j < w.bytes → v.extractLsb' (8 * j) 8 =
        if off % 2 ^ 28 + j < s.params.bufCap ∧
            (off / 2 ^ 28 ≤ 4 ∨ (off / 2 ^ 28 = 5 ∧ off % 2 ^ 28 + j < s.outLen.toNat))
        then s.byteAt (off + j) else 0

/-- 20_memory.md R51, R52, R54, 10_state.md R38: a write to a buffer or reserved region while Idle stores
its bytes little-endian in a host-writable buffer below BUF_CAP, nowhere else (not in OUTBUF), and changes
no register. -/
def Obligations.BufferWrites : Prop :=
  ∀ (s : State) (off : Nat) (w : Width) (v : Word) (ts : List Turn), s.busy = false →
    s.hostNext off w (.write v) ts → legalAccess off w → 2 ^ 28 ≤ off →
    ∃ m, step s = .next { s with turns := ts, reply := some .written, mem := m } ∧
      ∀ a, ({ s with mem := m } : State).byteAt a =
        if off ≤ a ∧ a < off + w.bytes ∧ off / 2 ^ 28 ≤ 4 ∧ a % 2 ^ 28 < s.params.bufCap
        then v.extractLsb' (8 * (a - off)) 8 else s.byteAt a

/-- 30_encoding.md R85: `LOAD <BUF>, bytes`, run from Idle, puts the bytes at the start of the buffer and
their number in its length register, and changes no other register and no byte outside the words it
writes. -/
def Obligations.LoadPutsOperand : Prop :=
  ∀ (s : State) (b : LoadBuf) (bytes : Bytes) (ts : List Turn), s.busy = false →
    bytes.length ≤ s.params.bufCap → s.params.bufCap ≤ 2 ^ 28 →
    s.turns = (HostAction.load b bytes).turns s.params.base ++ ts →
    ∃ m, Host.Core.run Sys2Proof.core ((HostAction.load b bytes).turns s.params.base).length s = .next
      { s with
        turns  := ts
        reply  := some .written
        mem    := m
        inLen  := if b = .input then BitVec.ofNat 64 bytes.length else s.inLen
        keyLen := if b = .key then BitVec.ofNat 64 bytes.length else s.keyLen
        ivLen  := if b = .iv then BitVec.ofNat 64 bytes.length else s.ivLen
        aadLen := if b = .aad then BitVec.ofNat 64 bytes.length else s.aadLen } ∧
      ({ s with mem := m } : State).view b.buf bytes.length = bytes ∧
      ∀ a, a < b.buf.base ∨ b.buf.base + 4 * ((bytes.length + 3) / 4) ≤ a →
        ({ s with mem := m } : State).byteAt a = s.byteAt a

/-! ### The agents -/

/-- 60_exceptions.md R251, 42_modes.md R201, R205, R208, R209: which answers each request can have, to what its
collaborator's laws bind it after the answers given before (in any command), and what the arrival of an answer
does: it answers the outstanding request, once, and is kept. RNG answers and constructions are under no law.
That an answer names its request by a number, that one which breaks a law is refused, and that answers are
kept is the model's (log 5, log 6, log 18). -/
def Obligations.AnswerTakesEffect : Prop :=
  (∀ (s : State) (o : Outstanding) (a : Answer) (ts : List Turn), s.pending = some o →
    s.turns = .collaborator o.ticket a :: ts → s.ask o.request = none →
    (lawfulAnswer s.transcript o.request a = true → ∃ t, step s = .next t ∧
      t = { s with
        turns      := ts
        pending    := none
        answers    := s.answers ++ [⟨o.request, a⟩]
        transcript := s.transcript ++ [⟨o.request, a⟩] } ∧
      t.ask o.request = some a ∧ ∀ q, q ≠ o.request → t.ask q = s.ask q) ∧
    (lawfulAnswer s.transcript o.request a = false → step s = .refused .collaboratorBrokeLaw)) ∧
  (∀ (s : State) (k : Nat) (a : Answer) (ts : List Turn), s.turns = .collaborator k a :: ts →
    (∀ o, s.pending = some o → o.ticket ≠ k) → step s = .next { s with turns := ts }) ∧
  (∀ s t : State, step s = .next t → t.transcript = s.transcript ∨
    ∃ o a ts, s.pending = some o ∧ s.turns = .collaborator o.ticket a :: ts ∧
      t.transcript = s.transcript ++ [⟨o.request, a⟩]) ∧
  (∀ (key x : Bytes) (a : Answer),
    ((Request.cipherInit key).fits a = true ↔ a = .ok ∨ a = .fail) ∧
    ((Request.encryptBlock key x).fits a = true ↔ ∃ y, a = .bytes y ∧ y.length = 16) ∧
    ((Request.decryptBlock key x).fits a = true ↔ ∃ y, a = .bytes y ∧ y.length = 16)) ∧
  (∀ (n t : Nat) (key nonce p aad : Bytes) (a : Answer),
    ((Request.aeadInit n t).fits a = true ↔ a = .ok ∨ a = .fail) ∧
    ((Request.sealData t key nonce p aad).fits a = true ↔ ∃ y, a = .bytes y ∧ y.length = p.length + t) ∧
    ((Request.openData t key nonce p aad).fits a = true ↔
      a = .fail ∨ ∃ y, a = .bytes y ∧ y.length + t = p.length) ∧
    ((Request.rngFill n).fits a = true ↔ a = .fail ∨ ∃ y, a = .bytes y ∧ y.length = n)) ∧
  (∀ (l : List Answered) (q : Request) (a : Answer), lawfulAnswer l q a = true → q.fits a = true) ∧
  (∀ (l : List Answered) (key : Bytes) (n t k : Nat) (a : Answer),
    lawfulAnswer l (.cipherInit key) a = (Request.cipherInit key).fits a ∧
    lawfulAnswer l (.aeadInit n t) a = (Request.aeadInit n t).fits a ∧
    lawfulAnswer l (.rngFill k) a = (Request.rngFill k).fits a) ∧
  (∀ (l : List Answered) (key x y x' y' : Bytes),
    (⟨.encryptBlock key x, .bytes y⟩ ∈ l ∨ ⟨.decryptBlock key y, .bytes x⟩ ∈ l) →
    (lawfulAnswer l (.encryptBlock key x) (.bytes y') = true → y' = y) ∧
    (lawfulAnswer l (.encryptBlock key x') (.bytes y) = true → x' = x) ∧
    (lawfulAnswer l (.decryptBlock key y) (.bytes x') = true → x' = x) ∧
    (lawfulAnswer l (.decryptBlock key y') (.bytes x) = true → y' = y)) ∧
  (∀ (l : List Answered) (t : Nat) (key nonce p aad c c' : Bytes) (r : Answer),
    ⟨.sealData t key nonce p aad, .bytes c⟩ ∈ l →
    (lawfulAnswer l (.sealData t key nonce p aad) (.bytes c') = true → c' = c) ∧
    (lawfulAnswer l (.openData t key nonce c aad) r = true → r = .bytes p) ∧
    (∀ (t' : Nat) (key' nonce' p' aad' : Bytes),
      (lawfulAnswer l (.sealData t' key' nonce' p' aad') (.bytes c) = true →
        t' = t ∧ key' = key ∧ nonce' = nonce ∧ aad' = aad ∧ p' = p) ∧
      (t' ≠ t ∨ key' ≠ key ∨ nonce' ≠ nonce ∨ aad' ≠ aad →
        lawfulAnswer l (.openData t' key' nonce' c aad') r = true → r = .fail) ∧
      (oneBitApart c c' = true → lawfulAnswer l (.openData t' key' nonce' c' aad') r = true → r = .fail))) ∧
  (∀ (l : List Answered) (t t' : Nat) (key key' nonce nonce' p p' aad aad' c c' : Bytes),
    ⟨.openData t key nonce c aad, .bytes p⟩ ∈ l →
    (lawfulAnswer l (.sealData t' key' nonce' p' aad') (.bytes c) = true →
      t' = t ∧ key' = key ∧ nonce' = nonce ∧ aad' = aad ∧ p' = p) ∧
    (oneBitApart c' c = true → lawfulAnswer l (.sealData t' key' nonce' p' aad') (.bytes c') = false))

/-- 70_reset_and_hazards.md R280: while its request is not answered and there is no reset, a waiting
command stays Busy, however long, and nothing of its results appears. -/
def Obligations.UnansweredRequestKeepsBusy : Prop :=
  ∀ (s u : State) (o : Outstanding) (n : Nat), s.busy = true → s.pending = some o →
    sequencerStep s = .next s →
    (∀ x ∈ s.turns, x ≠ .reset ∧ ∀ a, x ≠ .collaborator o.ticket a) →
    Host.Core.run Sys2Proof.core n s = .next u →
    u.busy = true ∧ u.pending = some o ∧ u.done = s.done ∧ u.err = s.err ∧ u.errarg = s.errarg ∧
      u.outLen = s.outLen ∧ u.mem = s.mem

/-- 60_exceptions.md R248: nothing but the command's own completion or a reset ends a running command, and
irq rises only at a completion or when the host enables it. -/
def Obligations.OnlyResetInterruptsCommand : Prop :=
  ∀ s t : State, step s = .next t →
    (s.busy = true → t.busy = false → (∃ ts, s.sequencerNext ts) ∨ ∃ ts, s.turns = .reset :: ts) ∧
    (s.irq = false → t.irq = true →
      ((∃ ts, s.sequencerNext ts) ∧ s.busy = true ∧ t.busy = false) ∨
      (s.busy = false ∧ s.done = true ∧
        ∃ v ts, s.hostNext 0x008 .word (.write v) ts ∧ v.getLsbD 0 = true))

/-- 60_exceptions.md R250, 70_reset_and_hazards.md R276: the result registers and the readable output
change only at a completion, or by reset. -/
def Obligations.ResultsChangeOnlyAtCompletion : Prop :=
  ∀ s t : State, step s = .next t →
    (t.err ≠ s.err ∨ t.errarg ≠ s.errarg ∨ t.outLen ≠ s.outLen ∨ ∃ k, t.outByte k ≠ s.outByte k) →
    ((∃ ts, s.sequencerNext ts) ∧ s.busy = true ∧ t.busy = false ∧ t.done = true) ∨
    ∃ ts, s.turns = .reset :: ts

/-- 10_state.md R35, R36, R28, 70_reset_and_hazards.md R278: the parameters never change; CMD, CTRL.IE,
the operand registers and the input buffers change only by a host write while Idle, or by reset. -/
def Obligations.OperandsChangeOnlyByIdleHostWrites : Prop :=
  ∀ s t : State, step s = .next t →
    t.params = s.params ∧
    ((t.cmd ≠ s.cmd ∨ t.ie ≠ s.ie ∨ t.blksz ≠ s.blksz ∨ t.tagsz ≠ s.tagsz ∨ t.arg0 ≠ s.arg0 ∨
        t.arg1 ≠ s.arg1 ∨ t.inLen ≠ s.inLen ∨ t.keyLen ≠ s.keyLen ∨ t.ivLen ≠ s.ivLen ∨
        t.aadLen ≠ s.aadLen ∨
        ∃ b k, b ≠ .output ∧ k < 2 ^ 28 ∧ t.byteAt (Buf.base b + k) ≠ s.byteAt (Buf.base b + k)) →
      (s.busy = false ∧ ∃ off w v ts, s.hostNext off w (.write v) ts) ∨ ∃ ts, s.turns = .reset :: ts)

/-! ### Every command -/

/-- 60_exceptions.md R240, 10_state.md R41: no command traps or stops the machine. It ends, with DONE set
and no request outstanding, without output if it failed and without payload if it did not; or it stays
Busy with a request outstanding that has had no answer and is one of its port (60_exceptions.md R251). -/
def Obligations.CommandEndsOrWaits : Prop :=
  ∀ (i : Instr) (s : State), s.busy = true → ∃ t, exec i s = .next t ∧
    ((t.busy = false ∧ t.done = true ∧ t.pending = none ∧ (t.err ≠ .ok → t.outLen = 0) ∧
        (t.err = .ok → t.errarg = 0)) ∨
      (t.busy = true ∧ ∃ o, t.pending = some o ∧ s.ask o.request = none ∧ o.request.legal))

/-- 10_state.md R35, the frame of every command: no operand register, no other register but the results,
and no byte outside OUTBUF[0..OUT_LEN) changes; on a failure, for a VAL command and while waiting no byte
at all; and waiting changes only the outstanding request. -/
def Obligations.CommandFrame : Prop :=
  ∀ (i : Instr) (s t : State), paramsLegal s.params → exec i s = .next t →
    sameOperands s t ∧
    (∀ a, a < Buf.base .output ∨ Buf.base .output + t.outLen.toNat ≤ a → t.byteAt a = s.byteAt a) ∧
    (t.err ≠ .ok → ∀ a, t.byteAt a = s.byteAt a) ∧
    (∀ p, i.command = .val p → t.outLen = 0 ∧ ∀ a, t.byteAt a = s.byteAt a) ∧
    (s.busy = true → t.busy = true →
      t = { s with pending := t.pending, tickets := t.tickets } ∧ ∀ a, t.byteAt a = s.byteAt a)

/-- 60_exceptions.md R242: the effects of a success, and that a command that succeeds has just these. -/
def Obligations.SuccessEffect : Prop :=
  (∀ (s : State) (out : Bytes), paramsLegal s.params → out.length ≤ s.params.bufCap →
    (finish s out).outLen.toNat = out.length ∧ (finish s out).err = .ok ∧ (finish s out).errarg = 0 ∧
    (finish s out).done = true ∧ (finish s out).busy = false ∧
    (∀ k, (finish s out).outByte k = out.getD k 0) ∧ sameOperands s (finish s out) ∧
    (∀ b k, b ≠ .output → k < 2 ^ 28 → (finish s out).byteAt (Buf.base b + k) = s.byteAt (Buf.base b + k))) ∧
  (∀ (i : Instr) (s t : State), s.busy = true → exec i s = .next t → t.busy = false → t.err = .ok →
    ∃ out, out.length ≤ s.params.bufCap ∧ t = finish s out)

/-- 60_exceptions.md R243: the effects of a failure, and that a command that fails has just these. -/
def Obligations.FailureEffect : Prop :=
  (∀ (s : State) (code : Code) (arg : Nat), arg < 2 ^ 64 →
    (raiseErr s code arg).outLen = 0 ∧ (raiseErr s code arg).err = code ∧
    (raiseErr s code arg).errarg.toNat = arg ∧ (raiseErr s code arg).done = true ∧
    (raiseErr s code arg).busy = false ∧ (∀ k, (raiseErr s code arg).outByte k = 0) ∧
    sameOperands s (raiseErr s code arg) ∧ ∀ a, (raiseErr s code arg).byteAt a = s.byteAt a) ∧
  (∀ (i : Instr) (s t : State), s.busy = true → exec i s = .next t → t.busy = false → t.err ≠ .ok →
    t = raiseErr s t.err t.errarg.toNat)

/-! ### PAD and UNPAD -/

/-- 40_padding.md R102, R105 to R111: a PAD command whose checks pass appends the trailer of its scheme
(padZero, padBit, padPkcs7, padPkcs5, padX923, padIso7816, and padIso10126 with an empty filler). -/
def Obligations.PadAppendsTrailer : Prop :=
  ∀ (k : Scheme) (s : State), s.inLen.toNat ≠ 0 → padSize k s ≠ 0 →
    s.inLen.toNat + padOvh k s ≤ s.params.bufCap → (k = .iso10126 → padOvh k s = 1) →
    exec (Command.pad k).instr s = .next (finish s (s.inBytes ++ trailerBytes k (padOvh k s) []))

/-- 40_padding.md R111, R102: padIso10126 with a filler asks the randomness source for it, appends the
answer and the count, fails with ENTROPY_ERROR on failure, and waits while there is no answer. -/
def Obligations.PadFillsAtRandom : Prop :=
  ∀ s : State, s.inLen.toNat ≠ 0 → padSize .iso10126 s ≠ 0 →
    s.inLen.toNat + padOvh .iso10126 s ≤ s.params.bufCap → padOvh .iso10126 s ≠ 1 →
    (∀ r, s.ask (.rngFill (padOvh .iso10126 s - 1)) = some (.bytes r) →
      r.length = padOvh .iso10126 s - 1 ∧
      exec .padIso10126 s =
        .next (finish s (s.inBytes ++ r ++ [BitVec.ofNat 8 (padOvh .iso10126 s)]))) ∧
    (s.ask (.rngFill (padOvh .iso10126 s - 1)) = some .fail →
      exec .padIso10126 s = .next (raiseErr s .entropyError (padOvh .iso10126 s - 1))) ∧
    (s.ask (.rngFill (padOvh .iso10126 s - 1)) = none →
      exec .padIso10126 s = .next (waitFor s (.rngFill (padOvh .iso10126 s - 1))))

/-- 40_padding.md R105, 60_exceptions.md R244, R245, R249: the errors of PAD in their order, the payload
n + ov exact. -/
def Obligations.PadErrors : Prop :=
  ∀ (k : Scheme) (s : State), paramsLegal s.params →
    (s.inLen.toNat = 0 → exec (Command.pad k).instr s = .next (raiseErr s .emptyData 0)) ∧
    (s.inLen.toNat ≠ 0 → padSize k s = 0 →
      exec (Command.pad k).instr s = .next (raiseErr s .invalidBlockSize 0)) ∧
    (s.inLen.toNat ≠ 0 → padSize k s ≠ 0 → s.params.bufCap < s.inLen.toNat →
      exec (Command.pad k).instr s = .next (raiseErr s .capacityExceeded s.inLen.toNat)) ∧
    (s.inLen.toNat ≠ 0 → padSize k s ≠ 0 → s.inLen.toNat ≤ s.params.bufCap →
      s.params.bufCap < s.inLen.toNat + padOvh k s →
      exec (Command.pad k).instr s = .next (raiseErr s .capacityExceeded (s.inLen.toNat + padOvh k s)) ∧
        s.inLen.toNat + padOvh k s < 2 ^ 64)

/-- 40_padding.md R119, R100: the length laws, of every PAD command that succeeds. -/
def Obligations.PadLengths : Prop :=
  ∀ (k : Scheme) (s t : State), paramsLegal s.params → s.busy = true →
    exec (Command.pad k).instr s = .next t → t.busy = false → t.err = .ok →
    t.outLen.toNat % padSize k s = 0 ∧ s.inLen.toNat < t.outLen.toNat ∧
    t.outLen.toNat - s.inLen.toNat = padOvh k s ∧ 1 ≤ padOvh k s ∧ padOvh k s ≤ padSize k s

/-- 40_padding.md R112, R113, R103: unpadZero drops every trailing 0x00; unpadBit drops them and the 0x80
before them, and fails where the byte before them is no 0x80 or there is none. -/
def Obligations.UnpadZeroAndBit : Prop :=
  ∀ (s : State) (m : Nat), m ≤ s.inLen.toNat →
    (∀ j, m ≤ j → j < s.inLen.toNat → s.inBytes.getD j 0 = 0x00) →
    (m = 0 ∨ s.inBytes.getD (m - 1) 0 ≠ 0x00) →
    (unpadReady .zero s → exec .unpadZero s = .next (finish s (s.inBytes.take m))) ∧
    (unpadReady .bit s → m ≠ 0 → s.inBytes.getD (m - 1) 0 = 0x80 →
      exec .unpadBit s = .next (finish s (s.inBytes.take (m - 1)))) ∧
    (unpadReady .bit s → (m = 0 ∨ s.inBytes.getD (m - 1) 0 ≠ 0x80) →
      exec .unpadBit s = .next (raiseErr s .invalidData s.inLen.toNat))

/-- 40_padding.md R114, R115, R116, R103: unpadPkcs7, unpadPkcs5 and unpadX923 read the last byte as the
count c, check c against the length alone, check what their scheme checks of the last c bytes, and drop
them. -/
def Obligations.UnpadCounted : Prop :=
  ∀ (k : Scheme) (s : State) (c : Nat), unpadReady k s →
    c = (s.inBytes.getD (s.inLen.toNat - 1) 0).toNat →
    (k = .pkcs7 ∨ k = .pkcs5 →
      (c ≠ 0 → c ≤ s.inLen.toNat →
        (∀ j, s.inLen.toNat - c ≤ j → j < s.inLen.toNat → (s.inBytes.getD j 0).toNat = c) →
        exec (Command.unpad k).instr s = .next (finish s (s.inBytes.take (s.inLen.toNat - c)))) ∧
      ((c = 0 ∨ s.inLen.toNat < c ∨
          ∃ j, s.inLen.toNat - c ≤ j ∧ j < s.inLen.toNat ∧ (s.inBytes.getD j 0).toNat ≠ c) →
        exec (Command.unpad k).instr s = .next (raiseErr s .invalidData s.inLen.toNat))) ∧
    (k = .x923 →
      (c ≠ 0 → c ≤ s.inLen.toNat →
        (∀ j, s.inLen.toNat - c ≤ j → j < s.inLen.toNat - 1 → s.inBytes.getD j 0 = 0x00) →
        exec .unpadX923 s = .next (finish s (s.inBytes.take (s.inLen.toNat - c)))) ∧
      ((c = 0 ∨ s.inLen.toNat < c ∨
          ∃ j, s.inLen.toNat - c ≤ j ∧ j < s.inLen.toNat - 1 ∧ s.inBytes.getD j 0 ≠ 0x00) →
        exec .unpadX923 s = .next (raiseErr s .invalidData s.inLen.toNat)))

/-- 40_padding.md R117, R118, R103: unpadIso7816 cuts at the last 0x80 of the last B bytes and checks
nothing after it; unpadIso10126 checks the count against the length and B and drops that many bytes
unread. -/
def Obligations.UnpadIso : Prop :=
  (∀ (s : State), unpadReady .iso7816 s →
    (∀ i, s.inLen.toNat - padSize .iso7816 s ≤ i → i < s.inLen.toNat → s.inBytes.getD i 0 = 0x80 →
      (∀ j, i < j → j < s.inLen.toNat → s.inBytes.getD j 0 ≠ 0x80) →
      exec .unpadIso7816 s = .next (finish s (s.inBytes.take i))) ∧
    ((∀ i, s.inLen.toNat - padSize .iso7816 s ≤ i → i < s.inLen.toNat → s.inBytes.getD i 0 ≠ 0x80) →
      exec .unpadIso7816 s = .next (raiseErr s .invalidData s.inLen.toNat))) ∧
  (∀ (s : State) (c : Nat), unpadReady .iso10126 s →
    c = (s.inBytes.getD (s.inLen.toNat - 1) 0).toNat →
    (c ≤ s.inLen.toNat → c ≤ padSize .iso10126 s →
      exec .unpadIso10126 s = .next (finish s (s.inBytes.take (s.inLen.toNat - c)))) ∧
    ((s.inLen.toNat < c ∨ padSize .iso10126 s < c) →
      exec .unpadIso10126 s = .next (raiseErr s .invalidData s.inLen.toNat)))

/-- 40_padding.md R112, R122, 60_exceptions.md R249: the errors of UNPAD before the trailer, in their
order. -/
def Obligations.UnpadErrors : Prop :=
  ∀ (k : Scheme) (s : State),
    (s.inLen.toNat = 0 → exec (Command.unpad k).instr s = .next (raiseErr s .emptyData 0)) ∧
    (s.inLen.toNat ≠ 0 → padSize k s = 0 →
      exec (Command.unpad k).instr s = .next (raiseErr s .invalidBlockSize 0)) ∧
    (s.inLen.toNat ≠ 0 → padSize k s ≠ 0 → s.inLen.toNat % padSize k s ≠ 0 →
      exec (Command.unpad k).instr s = .next (raiseErr s .invalidData s.inLen.toNat)) ∧
    (s.inLen.toNat ≠ 0 → padSize k s ≠ 0 → s.inLen.toNat % padSize k s = 0 →
      s.params.bufCap < s.inLen.toNat →
      exec (Command.unpad k).instr s = .next (raiseErr s .capacityExceeded s.inLen.toNat))

/-- 40_padding.md R120: the round-trip law, of `Strip` and of the commands: UNPAD of what PAD put out
gives the data back, for ZERO exactly when the data does not end in 0x00, and otherwise without its
trailing zeros. -/
def Obligations.PaddingRoundTrip : Prop :=
  (∀ (k : Scheme) (d r : Bytes) (b : Nat), 1 ≤ b → b ≤ 255 → (k = .pkcs5 → b = 8) → d ≠ [] →
    r.length = b - d.length % b - 1 →
    (k ≠ .zero → strip k (d ++ trailerBytes k (b - d.length % b) r) b = some d) ∧
    (k = .zero →
      (strip k (d ++ trailerBytes k (b - d.length % b) r) b = some d ↔ d.getLast? ≠ some 0x00) ∧
      ∃ z, d = (strip k (d ++ trailerBytes k (b - d.length % b) r) b).getD [] ++ List.replicate z 0x00)) ∧
  (∀ (k : Scheme) (s t u v : State), paramsLegal s.params → s.busy = true →
    exec (Command.pad k).instr s = .next t → t.busy = false → t.err = .ok →
    u.params = s.params → u.blksz = s.blksz → u.inBytes = t.outBytes →
    (k = .zero → s.inBytes.getLast? ≠ some 0x00) →
    exec (Command.unpad k).instr u = .next v → v.err = .ok ∧ v.outBytes = s.inBytes)

/-- 40_padding.md R121: which single-byte corruptions of the trailer of pad(41 41 41, 8) UNPAD with B = 8
accepts, and how many. -/
def Obligations.CorruptionAcceptance : Prop :=
  ∀ k : Scheme,
    (∀ (j : Fin 5) (x : Byte),
      x ≠ (trailerBytes k 5 [0xAA, 0xAA, 0xAA, 0xAA]).getD j 0 →
      ((strip k ([0x41, 0x41, 0x41] ++ (trailerBytes k 5 [0xAA, 0xAA, 0xAA, 0xAA]).set j x) 8).isSome = true ↔
        match k with
        | .pkcs7 | .pkcs5 => j = 4 ∧ x = 0x01
        | .x923 => j = 4 ∧ (x = 0x01 ∨ x = 0x02 ∨ x = 0x03 ∨ x = 0x04)
        | .bit => j ≠ 0 ∧ x = 0x80
        | .iso7816 => j ≠ 0
        | .iso10126 => j ≠ 4 ∨ x.toNat ≤ 8
        | .zero => True)) ∧
    ((List.range 1280).countP fun n =>
        decide (BitVec.ofNat 8 n ≠ (trailerBytes k 5 [0xAA, 0xAA, 0xAA, 0xAA]).getD (n / 256) 0) &&
        (strip k ([0x41, 0x41, 0x41] ++
          (trailerBytes k 5 [0xAA, 0xAA, 0xAA, 0xAA]).set (n / 256) (BitVec.ofNat 8 n)) 8).isSome) =
      match k with
      | .pkcs7 | .pkcs5 => 1
      | .x923 => 4
      | .bit => 4
      | .iso7816 => 1020
      | .iso10126 => 1028
      | .zero => 1275

/-! ### VAL -/

/-- 41_validator.md R151, R152, R153, R156, R157, R158, R160: the one-operand predicates, on every value
of ARG0. -/
def Obligations.ValOneOperand : Prop :=
  ∀ s : State,
    exec .valKeysize s = .next (if isAesSize s.arg0.toNat then finish s []
      else raiseErr s .invalidKeySize s.arg0.toNat) ∧
    exec .valBlocksize s = .next (if isAesSize s.arg0.toNat then finish s []
      else raiseErr s .invalidBlockSize s.arg0.toNat) ∧
    exec .valIvsize s = .next (if isAesSize s.arg0.toNat then finish s []
      else raiseErr s .invalidIvSize s.arg0.toNat) ∧
    exec .valStdnonce s = .next (if s.arg0.toNat = 12 then finish s []
      else raiseErr s .invalidNonceSize s.arg0.toNat) ∧
    exec .valNoncesize s = .next (if 1 ≤ s.arg0.toNat then finish s [] else raiseErr s .invalidNonceSize 0) ∧
    exec .valTagsize s = .next (if 12 ≤ s.arg0.toNat ∧ s.arg0.toNat ≤ 16 then finish s []
      else raiseErr s .invalidTagSize s.arg0.toNat) ∧
    exec .valEmpty s = .next (if 1 ≤ s.arg0.toNat then finish s [] else raiseErr s .emptyData 0)

/-- 41_validator.md R154, R155, R159: the two-operand predicates, on every value of ARG0 and ARG1, the
errors of IVEQ in their order and the product of DATASIZE exact. -/
def Obligations.ValTwoOperands : Prop :=
  ∀ s : State,
    (¬ isAesSize s.arg0.toNat →
      exec .valIveq s = .next (raiseErr s .invalidIvSize s.arg0.toNat)) ∧
    (isAesSize s.arg0.toNat → ¬ isAesSize s.arg1.toNat →
      exec .valIveq s = .next (raiseErr s .invalidBlockSize s.arg1.toNat)) ∧
    (isAesSize s.arg0.toNat → isAesSize s.arg1.toNat → s.arg0 ≠ s.arg1 →
      exec .valIveq s = .next (raiseErr s .ivSizeMismatch s.arg0.toNat)) ∧
    (isAesSize s.arg0.toNat → s.arg0 = s.arg1 → exec .valIveq s = .next (finish s [])) ∧
    exec .valCiphertext s = .next (if s.arg1.toNat ≠ 0 ∧ s.arg1.toNat ∣ s.arg0.toNat then finish s []
      else raiseErr s .invalidCiphertext s.arg0.toNat) ∧
    exec .valDatasize s = .next (if s.arg0.toNat ≤ 4294967294 * s.arg1.toNat then finish s []
      else raiseErr s .dataTooLarge s.arg0.toNat)

/-! ### Block transforms -/

/-- 42_modes.md R181: the block split. -/
def Obligations.BlockSplit : Prop :=
  ∀ p : Bytes, p ≠ [] →
    (blocks p).length = (p.length + 15) / 16 ∧
    (∀ j, j < (blocks p).length → (blocks p).getD j [] = (p.drop (16 * j)).take 16) ∧
    (∀ j, j + 1 < (blocks p).length → ((blocks p).getD j []).length = 16) ∧
    ((blocks p).getD ((blocks p).length - 1) []).length = p.length - 16 * ((blocks p).length - 1) ∧
    1 ≤ p.length - 16 * ((blocks p).length - 1) ∧ p.length - 16 * ((blocks p).length - 1) ≤ 16 ∧
    (blocks p).flatten = p ∧ (p.length % 16 = 0 → ∀ b ∈ blocks p, b.length = 16)

/-- 42_modes.md R182: the ECB and CBC transforms, block by block: what the cipher is given and what comes
out, where `iv :: outputs` (in decryption `iv :: blocks`) lists C_0, C_1, ... -/
def Obligations.EcbCbcTransforms : Prop :=
  ∀ (f : Bytes → Bytes) (iv p : Bytes) (j : Nat), j < (blocks p).length →
    ((encCalls .ecb f iv p).map BlockCall.input).length = (blocks p).length ∧
    ((encCalls .ecb f iv p).map BlockCall.input).getD j [] = (blocks p).getD j [] ∧
    ((encCalls .ecb f iv p).map BlockCall.output).getD j [] = f ((blocks p).getD j []) ∧
    decCalls .ecb f iv p = encCalls .ecb f iv p ∧
    ((encCalls .cbc f iv p).map BlockCall.input).length = (blocks p).length ∧
    ((encCalls .cbc f iv p).map BlockCall.input).getD j [] =
      xorBytes ((blocks p).getD j []) ((iv :: (encCalls .cbc f iv p).map BlockCall.output).getD j []) ∧
    ((encCalls .cbc f iv p).map BlockCall.output).getD j [] =
      f (((encCalls .cbc f iv p).map BlockCall.input).getD j []) ∧
    ((decCalls .cbc f iv p).map BlockCall.input).length = (blocks p).length ∧
    ((decCalls .cbc f iv p).map BlockCall.input).getD j [] = (blocks p).getD j [] ∧
    ((decCalls .cbc f iv p).map BlockCall.output).getD j [] =
      xorBytes (f ((blocks p).getD j [])) ((iv :: blocks p).getD j [])

/-- 42_modes.md R183: the CFB transform, which the spec itself takes from general knowledge (log 13). -/
def Obligations.CfbTransform : Prop :=
  ∀ (e : Bytes → Bytes) (iv p : Bytes) (j : Nat), j < (blocks p).length →
    ((encCalls .cfb e iv p).map BlockCall.input).length = (blocks p).length ∧
    ((encCalls .cfb e iv p).map BlockCall.input).getD j [] =
      (iv :: (encCalls .cfb e iv p).map BlockCall.output).getD j [] ∧
    ((encCalls .cfb e iv p).map BlockCall.output).getD j [] =
      xorBytes ((blocks p).getD j [])
        ((e (((encCalls .cfb e iv p).map BlockCall.input).getD j [])).take ((blocks p).getD j []).length) ∧
    ((decCalls .cfb e iv p).map BlockCall.input).length = (blocks p).length ∧
    ((decCalls .cfb e iv p).map BlockCall.input).getD j [] = (iv :: blocks p).getD j [] ∧
    ((decCalls .cfb e iv p).map BlockCall.output).getD j [] =
      xorBytes ((blocks p).getD j []) ((e ((iv :: blocks p).getD j [])).take ((blocks p).getD j []).length)

/-- 42_modes.md R184: the OFB transform, which the spec itself takes from general knowledge (log 13). The
j-th input of the cipher is O_(j-1). -/
def Obligations.OfbTransform : Prop :=
  ∀ (e : Bytes → Bytes) (iv p : Bytes) (j : Nat), j < (blocks p).length →
    ((encCalls .ofb e iv p).map BlockCall.input).length = (blocks p).length ∧
    ((encCalls .ofb e iv p).map BlockCall.input).getD j [] =
      (iv :: ((encCalls .ofb e iv p).map BlockCall.input).map e).getD j [] ∧
    ((encCalls .ofb e iv p).map BlockCall.output).getD j [] =
      xorBytes ((blocks p).getD j [])
        ((e (((encCalls .ofb e iv p).map BlockCall.input).getD j [])).take ((blocks p).getD j []).length) ∧
    decCalls .ofb e iv p = encCalls .ofb e iv p

/-- 42_modes.md R185: the CTR transform, which the spec itself takes from general knowledge (log 13). The
j-th counter block is IV + j as a big-endian 128-bit integer, modulo 2^128. -/
def Obligations.CtrTransform : Prop :=
  (∀ x : Bytes, x.length = 16 →
    beNat x = ((List.range 16).map fun i => (x.getD i 0).toNat * 2 ^ (8 * (15 - i))).sum) ∧
  (∀ (e : Bytes → Bytes) (iv p : Bytes) (j : Nat), iv.length = 16 → j < (blocks p).length →
    ((encCalls .ctr e iv p).map BlockCall.input).length = (blocks p).length ∧
    (((encCalls .ctr e iv p).map BlockCall.input).getD j []).length = 16 ∧
    beNat (((encCalls .ctr e iv p).map BlockCall.input).getD j []) = (beNat iv + j) % 2 ^ 128 ∧
    ((encCalls .ctr e iv p).map BlockCall.output).getD j [] =
      xorBytes ((blocks p).getD j [])
        ((e (((encCalls .ctr e iv p).map BlockCall.input).getD j [])).take ((blocks p).getD j []).length) ∧
    decCalls .ctr e iv p = encCalls .ctr e iv p)

/-! ### ENC and DEC -/

/-- 42_modes.md R186, R190, R192, R194, R196, R198, R211: a non-GCM ENC command (all forty: ECB, CBC, CFB,
OFB, CTR, each with NONE, ZERO, BIT, PKCS7, PKCS5, X923, ISO7816, ISO10126: encEcbNone to encCtrIso10126)
whose checks pass and whose requests are answered puts out the transform of IN and its trailer, of that
length. -/
def Obligations.EncCompletes : Prop :=
  ∀ (m : BMode) (k : Option Scheme) (s : State) (E : Bytes → Bytes) (r : Bytes),
    paramsLegal s.params → modeReady m s →
    (m = .ecb ∨ m = .cbc → (s.inLen.toNat + modeOvh k s.inLen.toNat) % 16 = 0) →
    s.inLen.toNat + modeOvh k s.inLen.toNat ≤ s.params.bufCap →
    (k = some .iso10126 → modeOvh k s.inLen.toNat ≠ 1 →
      s.ask (.rngFill (modeOvh k s.inLen.toNat - 1)) = some (.bytes r)) →
    (∀ x ∈ encCalls m E s.ivBytes (modeInput k s r),
      s.ask (.encryptBlock s.keyBytes x.input) = some (.bytes (E x.input))) →
    exec (Command.enc m k).instr s =
      .next (finish s (joined (encCalls m E s.ivBytes (modeInput k s r)))) ∧
    (joined (encCalls m E s.ivBytes (modeInput k s r))).length =
      s.inLen.toNat + modeOvh k s.inLen.toNat

/-- 42_modes.md R187, R191, R193, R195, R197, R199: a non-GCM DEC command (all forty: ECB, CBC, CFB, OFB,
CTR, each with NONE, ZERO, BIT, PKCS7, PKCS5, X923, ISO7816, ISO10126: decEcbNone to decCtrIso10126) whose
checks pass and whose block requests are answered puts out the transform of IN, with a scheme without its
trailer; a length that is no multiple of the padding block size and a malformed trailer give
INVALID_DATA. -/
def Obligations.DecCompletes : Prop :=
  ∀ (m : BMode) (k : Option Scheme) (s : State) (F : Bytes → Bytes) (p : Bytes),
    paramsLegal s.params → modeReady m s → (m = .ecb ∨ m = .cbc → s.inLen.toNat % 16 = 0) →
    s.inLen.toNat ≤ s.params.bufCap →
    (∀ x ∈ decCalls m F s.ivBytes s.inBytes,
      s.ask (decBlockRequest m s.keyBytes x.input) = some (.bytes (F x.input))) →
    p = joined (decCalls m F s.ivBytes s.inBytes) →
    p.length = s.inLen.toNat ∧
    (k = none → exec (Command.dec m k).instr s = .next (finish s p)) ∧
    (∀ c, k = some c → s.inLen.toNat % modePadSize c ≠ 0 →
      exec (Command.dec m k).instr s = .next (raiseErr s .invalidData s.inLen.toNat)) ∧
    (∀ c out, k = some c → s.inLen.toNat % modePadSize c = 0 → strip c p (modePadSize c) = some out →
      exec (Command.dec m k).instr s = .next (finish s out)) ∧
    (∀ c, k = some c → s.inLen.toNat % modePadSize c = 0 → strip c p (modePadSize c) = none →
      exec (Command.dec m k).instr s = .next (raiseErr s .invalidData s.inLen.toNat))

/-- 42_modes.md R186, 60_exceptions.md R244, R245, R249: the errors of non-GCM ENC in their order, the
payload PL exact, and the wait for the first request. -/
def Obligations.EncErrors : Prop :=
  ∀ (m : BMode) (k : Option Scheme) (s : State) (pl : Nat), paramsLegal s.params →
    pl = s.inLen.toNat + modeOvh k s.inLen.toNat →
    (s.inLen.toNat = 0 → exec (Command.enc m k).instr s = .next (raiseErr s .emptyData 0)) ∧
    (s.inLen.toNat ≠ 0 → ¬ isAesSize s.keyLen.toNat →
      exec (Command.enc m k).instr s = .next (raiseErr s .invalidKeySize s.keyLen.toNat)) ∧
    (s.inLen.toNat ≠ 0 → isAesSize s.keyLen.toNat → m ≠ .ecb → ¬ isAesSize s.ivLen.toNat →
      exec (Command.enc m k).instr s = .next (raiseErr s .invalidIvSize s.ivLen.toNat)) ∧
    (s.inLen.toNat ≠ 0 → isAesSize s.keyLen.toNat → m ≠ .ecb →
      (s.ivLen.toNat = 24 ∨ s.ivLen.toNat = 32) →
      exec (Command.enc m k).instr s = .next (raiseErr s .ivSizeMismatch s.ivLen.toNat)) ∧
    (modeValid m s → s.ask (.cipherInit s.keyBytes) = none →
      exec (Command.enc m k).instr s = .next (waitFor s (.cipherInit s.keyBytes))) ∧
    (modeValid m s → s.ask (.cipherInit s.keyBytes) = some .fail →
      exec (Command.enc m k).instr s = .next (raiseErr s .cipherInitFailed 0)) ∧
    (modeReady m s → (m = .ecb ∨ m = .cbc) → pl % 16 ≠ 0 →
      exec (Command.enc m k).instr s = .next (raiseErr s .invalidData pl) ∧ pl < 2 ^ 64) ∧
    (modeReady m s → (m = .ecb ∨ m = .cbc → pl % 16 = 0) → s.params.bufCap < s.inLen.toNat →
      exec (Command.enc m k).instr s = .next (raiseErr s .capacityExceeded s.inLen.toNat)) ∧
    (modeReady m s → (m = .ecb ∨ m = .cbc → pl % 16 = 0) → s.inLen.toNat ≤ s.params.bufCap →
      s.params.bufCap < pl →
      exec (Command.enc m k).instr s = .next (raiseErr s .capacityExceeded pl) ∧ pl < 2 ^ 64) ∧
    (modeReady m s → pl ≤ s.params.bufCap → k = some .iso10126 → modeOvh k s.inLen.toNat ≠ 1 →
      s.ask (.rngFill (modeOvh k s.inLen.toNat - 1)) = some .fail →
      exec (Command.enc m k).instr s = .next (raiseErr s .entropyError (modeOvh k s.inLen.toNat - 1)))

/-- 42_modes.md R187, 60_exceptions.md R249: the errors of non-GCM DEC before the transform, in their
order, and the wait for the first request. -/
def Obligations.DecErrors : Prop :=
  ∀ (m : BMode) (k : Option Scheme) (s : State), paramsLegal s.params →
    (s.inLen.toNat = 0 → exec (Command.dec m k).instr s = .next (raiseErr s .emptyData 0)) ∧
    (s.inLen.toNat ≠ 0 → ¬ isAesSize s.keyLen.toNat →
      exec (Command.dec m k).instr s = .next (raiseErr s .invalidKeySize s.keyLen.toNat)) ∧
    (s.inLen.toNat ≠ 0 → isAesSize s.keyLen.toNat → m ≠ .ecb → ¬ isAesSize s.ivLen.toNat →
      exec (Command.dec m k).instr s = .next (raiseErr s .invalidIvSize s.ivLen.toNat)) ∧
    (s.inLen.toNat ≠ 0 → isAesSize s.keyLen.toNat → m ≠ .ecb →
      (s.ivLen.toNat = 24 ∨ s.ivLen.toNat = 32) →
      exec (Command.dec m k).instr s = .next (raiseErr s .ivSizeMismatch s.ivLen.toNat)) ∧
    (modeValid m s → s.ask (.cipherInit s.keyBytes) = none →
      exec (Command.dec m k).instr s = .next (waitFor s (.cipherInit s.keyBytes))) ∧
    (modeValid m s → s.ask (.cipherInit s.keyBytes) = some .fail →
      exec (Command.dec m k).instr s = .next (raiseErr s .cipherInitFailed 0)) ∧
    (modeReady m s → (m = .ecb ∨ m = .cbc) → s.inLen.toNat % 16 ≠ 0 →
      exec (Command.dec m k).instr s = .next (raiseErr s .invalidCiphertext s.inLen.toNat)) ∧
    (modeReady m s → (m = .ecb ∨ m = .cbc → s.inLen.toNat % 16 = 0) → s.params.bufCap < s.inLen.toNat →
      exec (Command.dec m k).instr s = .next (raiseErr s .capacityExceeded s.inLen.toNat))

/-- 42_modes.md R212: the order of the requests after construction: the filler first, then the blocks, one
at a time; at the first that has no answer the command waits for it. -/
def Obligations.RequestsInOrder : Prop :=
  ∀ (m : BMode) (k : Option Scheme) (s : State), paramsLegal s.params → modeReady m s →
    ((m = .ecb ∨ m = .cbc → (s.inLen.toNat + modeOvh k s.inLen.toNat) % 16 = 0) →
      s.inLen.toNat + modeOvh k s.inLen.toNat ≤ s.params.bufCap →
      (k = some .iso10126 → modeOvh k s.inLen.toNat ≠ 1 →
        s.ask (.rngFill (modeOvh k s.inLen.toNat - 1)) = none →
        exec (Command.enc m k).instr s = .next (waitFor s (.rngFill (modeOvh k s.inLen.toNat - 1)))) ∧
      (∀ (E : Bytes → Bytes) (r : Bytes) (pre post : List BlockCall) (x : BlockCall),
        (k = some .iso10126 → modeOvh k s.inLen.toNat ≠ 1 →
          s.ask (.rngFill (modeOvh k s.inLen.toNat - 1)) = some (.bytes r)) →
        encCalls m E s.ivBytes (modeInput k s r) = pre ++ x :: post →
        (∀ y ∈ pre, s.ask (.encryptBlock s.keyBytes y.input) = some (.bytes (E y.input))) →
        s.ask (.encryptBlock s.keyBytes x.input) = none →
        exec (Command.enc m k).instr s = .next (waitFor s (.encryptBlock s.keyBytes x.input)))) ∧
    ((m = .ecb ∨ m = .cbc → s.inLen.toNat % 16 = 0) → s.inLen.toNat ≤ s.params.bufCap →
      ∀ (F : Bytes → Bytes) (pre post : List BlockCall) (x : BlockCall),
        decCalls m F s.ivBytes s.inBytes = pre ++ x :: post →
        (∀ y ∈ pre, s.ask (decBlockRequest m s.keyBytes y.input) = some (.bytes (F y.input))) →
        s.ask (decBlockRequest m s.keyBytes x.input) = none →
        exec (Command.dec m k).instr s = .next (waitFor s (decBlockRequest m s.keyBytes x.input)))

/-- 42_modes.md R209: DEC of what ENC put out, with the same key and IV, gives the plaintext back, for every
mode and scheme; with ZERO when the plaintext does not end in 0x00. The block answers of the two commands are
one cipher's: those ENC had are in the transcript of the machine that runs DEC. -/
def Obligations.ModeRoundTrip : Prop :=
  ∀ (m : BMode) (k : Option Scheme) (s t u v : State), Inv u → (∀ x ∈ s.answers, x ∈ u.transcript) →
    s.busy = true → u.busy = true →
    exec (Command.enc m k).instr s = .next t → t.busy = false → t.err = .ok →
    u.params = s.params → u.inBytes = t.outBytes → u.keyBytes = s.keyBytes →
    (m = .ecb ∨ u.ivBytes = s.ivBytes) → u.ask (.cipherInit u.keyBytes) = some .ok →
    (k = some .zero → s.inBytes.getLast? ≠ some 0x00) →
    exec (Command.dec m k).instr u = .next v → v.busy = false →
    v.err = .ok ∧ v.outBytes = s.inBytes

/-! ### GCM -/

/-- 42_modes.md R188, R200, R202, R204, R211: ENC.GCM (encGcmStd, encGcmNonce, encGcmTag) whose checks
pass and whose requests are answered puts out the answer to Seal, IN_LEN + t bytes. -/
def Obligations.GcmEncCompletes : Prop :=
  ∀ (v : GVar) (s : State) (y : Bytes), paramsLegal s.params → gcmReady v s → gcmFits s →
    s.inLen.toNat + gcmTag v s ≤ s.params.bufCap →
    s.ask (.sealData (gcmTag v s) s.keyBytes s.ivBytes s.inBytes s.aadBytes) = some (.bytes y) →
    exec (Command.encGcm v).instr s = .next (finish s y) ∧ y.length = s.inLen.toNat + gcmTag v s

/-- 42_modes.md R189, R201, R203, R205, R210, R211: DEC.GCM (decGcmStd, decGcmNonce, decGcmTag) of an
input no shorter than the tag, whose checks pass and whose requests are answered with success, puts out the
answer to Open, IN_LEN - t bytes. -/
def Obligations.GcmDecCompletes : Prop :=
  ∀ (v : GVar) (s : State) (p : Bytes), paramsLegal s.params → gcmReady v s → gcmFits s →
    gcmTag v s ≤ s.inLen.toNat →
    s.ask (.openData (gcmTag v s) s.keyBytes s.ivBytes s.inBytes s.aadBytes) = some (.bytes p) →
    exec (Command.decGcm v).instr s = .next (finish s p) ∧ p.length = s.inLen.toNat - gcmTag v s

/-- 42_modes.md R188, R189, 60_exceptions.md R249: the errors of the GCM commands in their order, and the
wait for each of their requests. -/
def Obligations.GcmErrors : Prop :=
  ∀ (v : GVar) (s : State) (i : Instr), paramsLegal s.params →
    (i = (Command.encGcm v).instr ∨ i = (Command.decGcm v).instr) →
    (s.inLen.toNat = 0 → exec i s = .next (raiseErr s .emptyData 0)) ∧
    (s.inLen.toNat ≠ 0 → ¬ isAesSize s.keyLen.toNat →
      exec i s = .next (raiseErr s .invalidKeySize s.keyLen.toNat)) ∧
    (s.inLen.toNat ≠ 0 → isAesSize s.keyLen.toNat → ¬ nonceOk v s.ivLen.toNat →
      exec i s = .next (raiseErr s .invalidNonceSize s.ivLen.toNat)) ∧
    (s.inLen.toNat ≠ 0 → isAesSize s.keyLen.toNat → nonceOk v s.ivLen.toNat →
      (gcmTag v s < 12 ∨ 16 < gcmTag v s) → exec i s = .next (raiseErr s .invalidTagSize (gcmTag v s))) ∧
    (gcmValid v s → s.ask (.cipherInit s.keyBytes) = none →
      exec i s = .next (waitFor s (.cipherInit s.keyBytes))) ∧
    (gcmValid v s → s.ask (.cipherInit s.keyBytes) = some .fail →
      exec i s = .next (raiseErr s .cipherInitFailed 0)) ∧
    (gcmValid v s → s.ask (.cipherInit s.keyBytes) = some .ok →
      s.ask (.aeadInit s.ivLen.toNat (gcmTag v s)) = none →
      exec i s = .next (waitFor s (.aeadInit s.ivLen.toNat (gcmTag v s)))) ∧
    (gcmValid v s → s.ask (.cipherInit s.keyBytes) = some .ok →
      s.ask (.aeadInit s.ivLen.toNat (gcmTag v s)) = some .fail →
      exec i s = .next (raiseErr s .cipherInitFailed 0)) ∧
    (gcmReady v s → i = (Command.encGcm v).instr → 68719476704 < s.inLen.toNat →
      exec i s = .next (raiseErr s .dataTooLarge s.inLen.toNat)) ∧
    (gcmReady v s → i = (Command.decGcm v).instr → 68719476704 < s.inLen.toNat - gcmTag v s →
      exec i s = .next (raiseErr s .dataTooLarge (s.inLen.toNat - gcmTag v s))) ∧
    (gcmReady v s → (i = (Command.encGcm v).instr → s.inLen.toNat ≤ 68719476704) →
      (i = (Command.decGcm v).instr → s.inLen.toNat - gcmTag v s ≤ 68719476704) →
      s.params.bufCap < s.inLen.toNat →
      exec i s = .next (raiseErr s .capacityExceeded s.inLen.toNat)) ∧
    (gcmReady v s → s.inLen.toNat ≤ s.params.bufCap → s.params.bufCap < s.ivLen.toNat →
      exec i s = .next (raiseErr s .capacityExceeded s.ivLen.toNat)) ∧
    (gcmReady v s → s.inLen.toNat ≤ s.params.bufCap → s.ivLen.toNat ≤ s.params.bufCap →
      s.params.bufCap < s.aadLen.toNat → exec i s = .next (raiseErr s .capacityExceeded s.aadLen.toNat)) ∧
    (gcmReady v s → gcmFits s → i = (Command.encGcm v).instr →
      s.params.bufCap < s.inLen.toNat + gcmTag v s →
      exec i s = .next (raiseErr s .capacityExceeded (s.inLen.toNat + gcmTag v s)) ∧
        s.inLen.toNat + gcmTag v s < 2 ^ 64) ∧
    (gcmReady v s → gcmFits s → i = (Command.encGcm v).instr →
      s.inLen.toNat + gcmTag v s ≤ s.params.bufCap →
      s.ask (.sealData (gcmTag v s) s.keyBytes s.ivBytes s.inBytes s.aadBytes) = none →
      exec i s = .next (waitFor s (.sealData (gcmTag v s) s.keyBytes s.ivBytes s.inBytes s.aadBytes))) ∧
    (gcmReady v s → gcmFits s → i = (Command.decGcm v).instr → s.inLen.toNat < gcmTag v s →
      exec i s = .next (raiseErr s .authenticationFailed 0)) ∧
    (gcmReady v s → gcmFits s → i = (Command.decGcm v).instr → gcmTag v s ≤ s.inLen.toNat →
      s.ask (.openData (gcmTag v s) s.keyBytes s.ivBytes s.inBytes s.aadBytes) = none →
      exec i s = .next (waitFor s (.openData (gcmTag v s) s.keyBytes s.ivBytes s.inBytes s.aadBytes))) ∧
    (gcmReady v s → gcmFits s → i = (Command.decGcm v).instr → gcmTag v s ≤ s.inLen.toNat →
      s.ask (.openData (gcmTag v s) s.keyBytes s.ivBytes s.inBytes s.aadBytes) = some .fail →
      exec i s = .next (raiseErr s .authenticationFailed 0))

/-- 42_modes.md R189, R207, 60_exceptions.md R243, R244: an authentication failure is raised by DEC.GCM
alone and shows nothing: no output, no payload, no stored byte. -/
def Obligations.AuthenticationFailureLeaksNothing : Prop :=
  ∀ (i : Instr) (s t : State), s.busy = true → exec i s = .next t → t.busy = false →
    t.err = .authenticationFailed →
    (∃ v, i = (Command.decGcm v).instr) ∧ t.outLen = 0 ∧ t.errarg = 0 ∧ (∀ k, t.outByte k = 0) ∧
      ∀ a, t.byteAt a = s.byteAt a

/-- 42_modes.md R208, R188, R189, R201, R203, R205, R210: DEC.GCM of what ENC.GCM put out, with the same key,
nonce, additional data and tag size, gives the plaintext back; with one bit of it flipped, or with another key,
nonce, additional data or tag size, it fails with AUTHENTICATION_FAILED and shows no plaintext. The two commands have one AEAD: what ENC had answered is in the transcript of the machine
that runs DEC. -/
def Obligations.GcmRoundTrip : Prop :=
  ∀ (v v' : GVar) (s t u w : State), Inv u → (∀ x ∈ s.answers, x ∈ u.transcript) →
    s.busy = true → u.busy = true →
    exec (Command.encGcm v).instr s = .next t → t.busy = false → t.err = .ok →
    u.params = s.params → gcmReady v' u →
    exec (Command.decGcm v').instr u = .next w → w.busy = false →
    (sameContext v s v' u → u.inBytes = t.outBytes → w.err = .ok ∧ w.outBytes = s.inBytes) ∧
    (sameContext v s v' u → oneBitApart t.outBytes u.inBytes = true →
      w.err = .authenticationFailed ∧ w.outLen = 0 ∧ w.errarg = 0 ∧ ∀ a, w.byteAt a = u.byteAt a) ∧
    (¬ sameContext v s v' u → gcmFits u →
      u.inBytes = t.outBytes ∨ oneBitApart t.outBytes u.inBytes = true →
      w.err = .authenticationFailed ∧ w.outLen = 0 ∧ w.errarg = 0 ∧ ∀ a, w.byteAt a = u.byteAt a)

/-! ### The whole machine -/

/-- 10_state.md R44, 70_reset_and_hazards.md R272: the invariant holds after reset. -/
def Obligations.InvAtReset : Prop := Inv State.reset

/-- 10_state.md R24, R34, R37, R40, R41, 42_modes.md R208, R209, 60_exceptions.md R242 to R244: every step of
any agent keeps the invariant. -/
def Obligations.StepKeepsInv : Prop :=
  ∀ s t : State, Inv s → step s = .next t → Inv t

/-- 30_encoding.md R79, 60_exceptions.md R246, 10_state.md R22: the outcome of a command is a function of
its word, the operands the table of R79 lists for it, the answers it has had and BUF_CAP: two states that
agree on these, whatever else they hold, give the same status, payload and output, or wait for the same
request. -/
def Obligations.OutcomeDependsOnOperandsOnly : Prop :=
  ∀ (i : Instr) (s s' : State), (∀ o ∈ operandsRead i, o.same s s') → s.params.bufCap = s'.params.bufCap →
    s.answers = s'.answers → s.busy = true → s'.busy = true →
    ∃ t t', exec i s = .next t ∧ exec i s' = .next t' ∧ t.busy = t'.busy ∧
      (t.busy = false → t.err = t'.err ∧ t.errarg = t'.errarg ∧ t.outLen = t'.outLen ∧
        ∀ k, t.outByte k = t'.outByte k) ∧
      (t.busy = true → t.pending.map Outstanding.request = t'.pending.map Outstanding.request)

/-- 70_reset_and_hazards.md R281, 42_modes.md R212: if every request is answered, within what its laws
allow, every accepted command completes, after a number of requests bounded by the input length. -/
def Obligations.CompletesWhenAnswered : Prop :=
  ∀ (f : State → Answer) (s : State) (w : Word), answersLawfully f (accept s w) →
    ∃ n, n ≤ s.inLen.toNat / 16 + 8 ∧ (answeredRounds f n (accept s w)).busy = false ∧
      (answeredRounds f n (accept s w)).done = true

end
end

