-- ==== Sys2Proof/Laws/State.lean ====
section
/-! SUPPORT. One lemma per field per update of State, each true by rfl, so that no later proof unfolds a record
update. -/

namespace Sys2Proof.Machine

/-! ### finish -/

@[simp] theorem finish_params (s : State) (out : Bytes) : (finish s out).params = s.params := rfl
@[simp] theorem finish_cmd (s : State) (out : Bytes) : (finish s out).cmd = s.cmd := rfl
@[simp] theorem finish_busy (s : State) (out : Bytes) : (finish s out).busy = false := rfl
@[simp] theorem finish_done (s : State) (out : Bytes) : (finish s out).done = true := rfl
@[simp] theorem finish_busywr (s : State) (out : Bytes) : (finish s out).busywr = s.busywr := rfl
@[simp] theorem finish_err (s : State) (out : Bytes) : (finish s out).err = .ok := rfl
@[simp] theorem finish_ie (s : State) (out : Bytes) : (finish s out).ie = s.ie := rfl
@[simp] theorem finish_blksz (s : State) (out : Bytes) : (finish s out).blksz = s.blksz := rfl
@[simp] theorem finish_tagsz (s : State) (out : Bytes) : (finish s out).tagsz = s.tagsz := rfl
@[simp] theorem finish_errarg (s : State) (out : Bytes) : (finish s out).errarg = 0 := rfl
@[simp] theorem finish_arg0 (s : State) (out : Bytes) : (finish s out).arg0 = s.arg0 := rfl
@[simp] theorem finish_arg1 (s : State) (out : Bytes) : (finish s out).arg1 = s.arg1 := rfl
@[simp] theorem finish_inLen (s : State) (out : Bytes) : (finish s out).inLen = s.inLen := rfl
@[simp] theorem finish_keyLen (s : State) (out : Bytes) : (finish s out).keyLen = s.keyLen := rfl
@[simp] theorem finish_ivLen (s : State) (out : Bytes) : (finish s out).ivLen = s.ivLen := rfl
@[simp] theorem finish_aadLen (s : State) (out : Bytes) : (finish s out).aadLen = s.aadLen := rfl
@[simp] theorem finish_outLen (s : State) (out : Bytes) : (finish s out).outLen = BitVec.ofNat 64 out.length := rfl
@[simp] theorem finish_mem (s : State) (out : Bytes) : (finish s out).mem = s.mem.writeBytes (Buf.base .output) out := rfl
@[simp] theorem finish_pending (s : State) (out : Bytes) : (finish s out).pending = none := rfl
@[simp] theorem finish_answers (s : State) (out : Bytes) : (finish s out).answers = [] := rfl
@[simp] theorem finish_transcript (s : State) (out : Bytes) : (finish s out).transcript = s.transcript := rfl
@[simp] theorem finish_turns (s : State) (out : Bytes) : (finish s out).turns = s.turns := rfl
@[simp] theorem finish_reply (s : State) (out : Bytes) : (finish s out).reply = s.reply := rfl
@[simp] theorem finish_draws (s : State) (out : Bytes) : (finish s out).draws = s.draws := rfl
@[simp] theorem finish_epoch (s : State) (out : Bytes) : (finish s out).epoch = s.epoch := rfl
@[simp] theorem finish_tickets (s : State) (out : Bytes) : (finish s out).tickets = s.tickets := rfl

/-! ### raiseErr -/

@[simp] theorem raiseErr_params (s : State) (code : Code) (arg : Nat) : (raiseErr s code arg).params = s.params := rfl
@[simp] theorem raiseErr_cmd (s : State) (code : Code) (arg : Nat) : (raiseErr s code arg).cmd = s.cmd := rfl
@[simp] theorem raiseErr_busy (s : State) (code : Code) (arg : Nat) : (raiseErr s code arg).busy = false := rfl
@[simp] theorem raiseErr_done (s : State) (code : Code) (arg : Nat) : (raiseErr s code arg).done = true := rfl
@[simp] theorem raiseErr_busywr (s : State) (code : Code) (arg : Nat) : (raiseErr s code arg).busywr = s.busywr := rfl
@[simp] theorem raiseErr_err (s : State) (code : Code) (arg : Nat) : (raiseErr s code arg).err = code := rfl
@[simp] theorem raiseErr_ie (s : State) (code : Code) (arg : Nat) : (raiseErr s code arg).ie = s.ie := rfl
@[simp] theorem raiseErr_blksz (s : State) (code : Code) (arg : Nat) : (raiseErr s code arg).blksz = s.blksz := rfl
@[simp] theorem raiseErr_tagsz (s : State) (code : Code) (arg : Nat) : (raiseErr s code arg).tagsz = s.tagsz := rfl
@[simp] theorem raiseErr_errarg (s : State) (code : Code) (arg : Nat) : (raiseErr s code arg).errarg = BitVec.ofNat 64 arg := rfl
@[simp] theorem raiseErr_arg0 (s : State) (code : Code) (arg : Nat) : (raiseErr s code arg).arg0 = s.arg0 := rfl
@[simp] theorem raiseErr_arg1 (s : State) (code : Code) (arg : Nat) : (raiseErr s code arg).arg1 = s.arg1 := rfl
@[simp] theorem raiseErr_inLen (s : State) (code : Code) (arg : Nat) : (raiseErr s code arg).inLen = s.inLen := rfl
@[simp] theorem raiseErr_keyLen (s : State) (code : Code) (arg : Nat) : (raiseErr s code arg).keyLen = s.keyLen := rfl
@[simp] theorem raiseErr_ivLen (s : State) (code : Code) (arg : Nat) : (raiseErr s code arg).ivLen = s.ivLen := rfl
@[simp] theorem raiseErr_aadLen (s : State) (code : Code) (arg : Nat) : (raiseErr s code arg).aadLen = s.aadLen := rfl
@[simp] theorem raiseErr_outLen (s : State) (code : Code) (arg : Nat) : (raiseErr s code arg).outLen = 0 := rfl
@[simp] theorem raiseErr_mem (s : State) (code : Code) (arg : Nat) : (raiseErr s code arg).mem = s.mem := rfl
@[simp] theorem raiseErr_pending (s : State) (code : Code) (arg : Nat) : (raiseErr s code arg).pending = none := rfl
@[simp] theorem raiseErr_answers (s : State) (code : Code) (arg : Nat) : (raiseErr s code arg).answers = [] := rfl
@[simp] theorem raiseErr_transcript (s : State) (code : Code) (arg : Nat) : (raiseErr s code arg).transcript = s.transcript := rfl
@[simp] theorem raiseErr_turns (s : State) (code : Code) (arg : Nat) : (raiseErr s code arg).turns = s.turns := rfl
@[simp] theorem raiseErr_reply (s : State) (code : Code) (arg : Nat) : (raiseErr s code arg).reply = s.reply := rfl
@[simp] theorem raiseErr_draws (s : State) (code : Code) (arg : Nat) : (raiseErr s code arg).draws = s.draws := rfl
@[simp] theorem raiseErr_epoch (s : State) (code : Code) (arg : Nat) : (raiseErr s code arg).epoch = s.epoch := rfl
@[simp] theorem raiseErr_tickets (s : State) (code : Code) (arg : Nat) : (raiseErr s code arg).tickets = s.tickets := rfl

/-! ### accept -/

@[simp] theorem accept_params (s : State) (w : Word) : (accept s w).params = s.params := rfl
@[simp] theorem accept_cmd (s : State) (w : Word) : (accept s w).cmd = w := rfl
@[simp] theorem accept_busy (s : State) (w : Word) : (accept s w).busy = true := rfl
@[simp] theorem accept_done (s : State) (w : Word) : (accept s w).done = false := rfl
@[simp] theorem accept_busywr (s : State) (w : Word) : (accept s w).busywr = s.busywr := rfl
@[simp] theorem accept_err (s : State) (w : Word) : (accept s w).err = s.err := rfl
@[simp] theorem accept_ie (s : State) (w : Word) : (accept s w).ie = s.ie := rfl
@[simp] theorem accept_blksz (s : State) (w : Word) : (accept s w).blksz = s.blksz := rfl
@[simp] theorem accept_tagsz (s : State) (w : Word) : (accept s w).tagsz = s.tagsz := rfl
@[simp] theorem accept_errarg (s : State) (w : Word) : (accept s w).errarg = s.errarg := rfl
@[simp] theorem accept_arg0 (s : State) (w : Word) : (accept s w).arg0 = s.arg0 := rfl
@[simp] theorem accept_arg1 (s : State) (w : Word) : (accept s w).arg1 = s.arg1 := rfl
@[simp] theorem accept_inLen (s : State) (w : Word) : (accept s w).inLen = s.inLen := rfl
@[simp] theorem accept_keyLen (s : State) (w : Word) : (accept s w).keyLen = s.keyLen := rfl
@[simp] theorem accept_ivLen (s : State) (w : Word) : (accept s w).ivLen = s.ivLen := rfl
@[simp] theorem accept_aadLen (s : State) (w : Word) : (accept s w).aadLen = s.aadLen := rfl
@[simp] theorem accept_outLen (s : State) (w : Word) : (accept s w).outLen = s.outLen := rfl
@[simp] theorem accept_mem (s : State) (w : Word) : (accept s w).mem = s.mem := rfl
@[simp] theorem accept_pending (s : State) (w : Word) : (accept s w).pending = none := rfl
@[simp] theorem accept_answers (s : State) (w : Word) : (accept s w).answers = [] := rfl
@[simp] theorem accept_transcript (s : State) (w : Word) : (accept s w).transcript = s.transcript := rfl
@[simp] theorem accept_turns (s : State) (w : Word) : (accept s w).turns = s.turns := rfl
@[simp] theorem accept_reply (s : State) (w : Word) : (accept s w).reply = s.reply := rfl
@[simp] theorem accept_draws (s : State) (w : Word) : (accept s w).draws = s.draws := rfl
@[simp] theorem accept_epoch (s : State) (w : Word) : (accept s w).epoch = s.epoch := rfl
@[simp] theorem accept_tickets (s : State) (w : Word) : (accept s w).tickets = s.tickets := rfl

/-! ### writeStatus -/

@[simp] theorem writeStatus_params (s : State) (v : Word) : (writeStatus s v).params = s.params := rfl
@[simp] theorem writeStatus_cmd (s : State) (v : Word) : (writeStatus s v).cmd = s.cmd := rfl
@[simp] theorem writeStatus_busy (s : State) (v : Word) : (writeStatus s v).busy = s.busy := rfl
@[simp] theorem writeStatus_done (s : State) (v : Word) : (writeStatus s v).done = (s.done && !v.getLsbD 1) := rfl
@[simp] theorem writeStatus_busywr (s : State) (v : Word) : (writeStatus s v).busywr = (s.busywr && !v.getLsbD 2) := rfl
@[simp] theorem writeStatus_err (s : State) (v : Word) : (writeStatus s v).err = s.err := rfl
@[simp] theorem writeStatus_ie (s : State) (v : Word) : (writeStatus s v).ie = s.ie := rfl
@[simp] theorem writeStatus_blksz (s : State) (v : Word) : (writeStatus s v).blksz = s.blksz := rfl
@[simp] theorem writeStatus_tagsz (s : State) (v : Word) : (writeStatus s v).tagsz = s.tagsz := rfl
@[simp] theorem writeStatus_errarg (s : State) (v : Word) : (writeStatus s v).errarg = s.errarg := rfl
@[simp] theorem writeStatus_arg0 (s : State) (v : Word) : (writeStatus s v).arg0 = s.arg0 := rfl
@[simp] theorem writeStatus_arg1 (s : State) (v : Word) : (writeStatus s v).arg1 = s.arg1 := rfl
@[simp] theorem writeStatus_inLen (s : State) (v : Word) : (writeStatus s v).inLen = s.inLen := rfl
@[simp] theorem writeStatus_keyLen (s : State) (v : Word) : (writeStatus s v).keyLen = s.keyLen := rfl
@[simp] theorem writeStatus_ivLen (s : State) (v : Word) : (writeStatus s v).ivLen = s.ivLen := rfl
@[simp] theorem writeStatus_aadLen (s : State) (v : Word) : (writeStatus s v).aadLen = s.aadLen := rfl
@[simp] theorem writeStatus_outLen (s : State) (v : Word) : (writeStatus s v).outLen = s.outLen := rfl
@[simp] theorem writeStatus_mem (s : State) (v : Word) : (writeStatus s v).mem = s.mem := rfl
@[simp] theorem writeStatus_pending (s : State) (v : Word) : (writeStatus s v).pending = s.pending := rfl
@[simp] theorem writeStatus_answers (s : State) (v : Word) : (writeStatus s v).answers = s.answers := rfl
@[simp] theorem writeStatus_transcript (s : State) (v : Word) : (writeStatus s v).transcript = s.transcript := rfl
@[simp] theorem writeStatus_turns (s : State) (v : Word) : (writeStatus s v).turns = s.turns := rfl
@[simp] theorem writeStatus_reply (s : State) (v : Word) : (writeStatus s v).reply = s.reply := rfl
@[simp] theorem writeStatus_draws (s : State) (v : Word) : (writeStatus s v).draws = s.draws := rfl
@[simp] theorem writeStatus_epoch (s : State) (v : Word) : (writeStatus s v).epoch = s.epoch := rfl
@[simp] theorem writeStatus_tickets (s : State) (v : Word) : (writeStatus s v).tickets = s.tickets := rfl

/-! ### busRead -/

@[simp] theorem busRead_params (s : State) (off : Nat) (w : Width) : (busRead s off w).params = s.params := rfl
@[simp] theorem busRead_cmd (s : State) (off : Nat) (w : Width) : (busRead s off w).cmd = s.cmd := rfl
@[simp] theorem busRead_busy (s : State) (off : Nat) (w : Width) : (busRead s off w).busy = s.busy := rfl
@[simp] theorem busRead_done (s : State) (off : Nat) (w : Width) : (busRead s off w).done = s.done := rfl
@[simp] theorem busRead_busywr (s : State) (off : Nat) (w : Width) : (busRead s off w).busywr = s.busywr := rfl
@[simp] theorem busRead_err (s : State) (off : Nat) (w : Width) : (busRead s off w).err = s.err := rfl
@[simp] theorem busRead_ie (s : State) (off : Nat) (w : Width) : (busRead s off w).ie = s.ie := rfl
@[simp] theorem busRead_blksz (s : State) (off : Nat) (w : Width) : (busRead s off w).blksz = s.blksz := rfl
@[simp] theorem busRead_tagsz (s : State) (off : Nat) (w : Width) : (busRead s off w).tagsz = s.tagsz := rfl
@[simp] theorem busRead_errarg (s : State) (off : Nat) (w : Width) : (busRead s off w).errarg = s.errarg := rfl
@[simp] theorem busRead_arg0 (s : State) (off : Nat) (w : Width) : (busRead s off w).arg0 = s.arg0 := rfl
@[simp] theorem busRead_arg1 (s : State) (off : Nat) (w : Width) : (busRead s off w).arg1 = s.arg1 := rfl
@[simp] theorem busRead_inLen (s : State) (off : Nat) (w : Width) : (busRead s off w).inLen = s.inLen := rfl
@[simp] theorem busRead_keyLen (s : State) (off : Nat) (w : Width) : (busRead s off w).keyLen = s.keyLen := rfl
@[simp] theorem busRead_ivLen (s : State) (off : Nat) (w : Width) : (busRead s off w).ivLen = s.ivLen := rfl
@[simp] theorem busRead_aadLen (s : State) (off : Nat) (w : Width) : (busRead s off w).aadLen = s.aadLen := rfl
@[simp] theorem busRead_outLen (s : State) (off : Nat) (w : Width) : (busRead s off w).outLen = s.outLen := rfl
@[simp] theorem busRead_mem (s : State) (off : Nat) (w : Width) : (busRead s off w).mem = s.mem := rfl
@[simp] theorem busRead_pending (s : State) (off : Nat) (w : Width) : (busRead s off w).pending = s.pending := rfl
@[simp] theorem busRead_answers (s : State) (off : Nat) (w : Width) : (busRead s off w).answers = s.answers := rfl
@[simp] theorem busRead_transcript (s : State) (off : Nat) (w : Width) : (busRead s off w).transcript = s.transcript := rfl
@[simp] theorem busRead_turns (s : State) (off : Nat) (w : Width) : (busRead s off w).turns = s.turns := rfl
@[simp] theorem busRead_reply (s : State) (off : Nat) (w : Width) : (busRead s off w).reply = some (.data (readValue s (Config.freeWord s.draws) off w)) := rfl
@[simp] theorem busRead_draws (s : State) (off : Nat) (w : Width) : (busRead s off w).draws = if s.busy then s.draws + 1 else s.draws := rfl
@[simp] theorem busRead_epoch (s : State) (off : Nat) (w : Width) : (busRead s off w).epoch = s.epoch := rfl
@[simp] theorem busRead_tickets (s : State) (off : Nat) (w : Width) : (busRead s off w).tickets = s.tickets := rfl

/-! ### resetEvent -/

@[simp] theorem resetEvent_params (s : State) : (resetEvent s).params = s.params := rfl
@[simp] theorem resetEvent_cmd (s : State) : (resetEvent s).cmd = State.reset.cmd := rfl
@[simp] theorem resetEvent_busy (s : State) : (resetEvent s).busy = State.reset.busy := rfl
@[simp] theorem resetEvent_done (s : State) : (resetEvent s).done = State.reset.done := rfl
@[simp] theorem resetEvent_busywr (s : State) : (resetEvent s).busywr = State.reset.busywr := rfl
@[simp] theorem resetEvent_err (s : State) : (resetEvent s).err = State.reset.err := rfl
@[simp] theorem resetEvent_ie (s : State) : (resetEvent s).ie = State.reset.ie := rfl
@[simp] theorem resetEvent_blksz (s : State) : (resetEvent s).blksz = State.reset.blksz := rfl
@[simp] theorem resetEvent_tagsz (s : State) : (resetEvent s).tagsz = State.reset.tagsz := rfl
@[simp] theorem resetEvent_errarg (s : State) : (resetEvent s).errarg = State.reset.errarg := rfl
@[simp] theorem resetEvent_arg0 (s : State) : (resetEvent s).arg0 = State.reset.arg0 := rfl
@[simp] theorem resetEvent_arg1 (s : State) : (resetEvent s).arg1 = State.reset.arg1 := rfl
@[simp] theorem resetEvent_inLen (s : State) : (resetEvent s).inLen = State.reset.inLen := rfl
@[simp] theorem resetEvent_keyLen (s : State) : (resetEvent s).keyLen = State.reset.keyLen := rfl
@[simp] theorem resetEvent_ivLen (s : State) : (resetEvent s).ivLen = State.reset.ivLen := rfl
@[simp] theorem resetEvent_aadLen (s : State) : (resetEvent s).aadLen = State.reset.aadLen := rfl
@[simp] theorem resetEvent_outLen (s : State) : (resetEvent s).outLen = State.reset.outLen := rfl
@[simp] theorem resetEvent_mem (s : State) : (resetEvent s).mem = State.reset.mem := rfl
@[simp] theorem resetEvent_pending (s : State) : (resetEvent s).pending = State.reset.pending := rfl
@[simp] theorem resetEvent_answers (s : State) : (resetEvent s).answers = State.reset.answers := rfl
@[simp] theorem resetEvent_transcript (s : State) : (resetEvent s).transcript = s.transcript := rfl
@[simp] theorem resetEvent_turns (s : State) : (resetEvent s).turns = s.turns := rfl
@[simp] theorem resetEvent_reply (s : State) : (resetEvent s).reply = State.reset.reply := rfl
@[simp] theorem resetEvent_draws (s : State) : (resetEvent s).draws = s.draws := rfl
@[simp] theorem resetEvent_epoch (s : State) : (resetEvent s).epoch = s.epoch + 1 := rfl
@[simp] theorem resetEvent_tickets (s : State) : (resetEvent s).tickets = s.tickets := rfl

/-! ### withFetchWord -/

@[simp] theorem withFetchWord_params (s : State) (n w : Nat) : (s.withFetchWord n w).params = s.params := rfl
@[simp] theorem withFetchWord_cmd (s : State) (n w : Nat) : (s.withFetchWord n w).cmd = BitVec.ofNat 32 (w % 2 ^ n) := rfl
@[simp] theorem withFetchWord_busy (s : State) (n w : Nat) : (s.withFetchWord n w).busy = true := rfl
@[simp] theorem withFetchWord_done (s : State) (n w : Nat) : (s.withFetchWord n w).done = false := rfl
@[simp] theorem withFetchWord_busywr (s : State) (n w : Nat) : (s.withFetchWord n w).busywr = s.busywr := rfl
@[simp] theorem withFetchWord_err (s : State) (n w : Nat) : (s.withFetchWord n w).err = s.err := rfl
@[simp] theorem withFetchWord_ie (s : State) (n w : Nat) : (s.withFetchWord n w).ie = s.ie := rfl
@[simp] theorem withFetchWord_blksz (s : State) (n w : Nat) : (s.withFetchWord n w).blksz = s.blksz := rfl
@[simp] theorem withFetchWord_tagsz (s : State) (n w : Nat) : (s.withFetchWord n w).tagsz = s.tagsz := rfl
@[simp] theorem withFetchWord_errarg (s : State) (n w : Nat) : (s.withFetchWord n w).errarg = s.errarg := rfl
@[simp] theorem withFetchWord_arg0 (s : State) (n w : Nat) : (s.withFetchWord n w).arg0 = s.arg0 := rfl
@[simp] theorem withFetchWord_arg1 (s : State) (n w : Nat) : (s.withFetchWord n w).arg1 = s.arg1 := rfl
@[simp] theorem withFetchWord_inLen (s : State) (n w : Nat) : (s.withFetchWord n w).inLen = s.inLen := rfl
@[simp] theorem withFetchWord_keyLen (s : State) (n w : Nat) : (s.withFetchWord n w).keyLen = s.keyLen := rfl
@[simp] theorem withFetchWord_ivLen (s : State) (n w : Nat) : (s.withFetchWord n w).ivLen = s.ivLen := rfl
@[simp] theorem withFetchWord_aadLen (s : State) (n w : Nat) : (s.withFetchWord n w).aadLen = s.aadLen := rfl
@[simp] theorem withFetchWord_outLen (s : State) (n w : Nat) : (s.withFetchWord n w).outLen = s.outLen := rfl
@[simp] theorem withFetchWord_mem (s : State) (n w : Nat) : (s.withFetchWord n w).mem = s.mem := rfl
@[simp] theorem withFetchWord_pending (s : State) (n w : Nat) : (s.withFetchWord n w).pending = none := rfl
@[simp] theorem withFetchWord_answers (s : State) (n w : Nat) : (s.withFetchWord n w).answers = [] := rfl
@[simp] theorem withFetchWord_transcript (s : State) (n w : Nat) : (s.withFetchWord n w).transcript = s.transcript := rfl
@[simp] theorem withFetchWord_turns (s : State) (n w : Nat) : (s.withFetchWord n w).turns = .sequencer :: s.turns := rfl
@[simp] theorem withFetchWord_reply (s : State) (n w : Nat) : (s.withFetchWord n w).reply = s.reply := rfl
@[simp] theorem withFetchWord_draws (s : State) (n w : Nat) : (s.withFetchWord n w).draws = s.draws := rfl
@[simp] theorem withFetchWord_epoch (s : State) (n w : Nat) : (s.withFetchWord n w).epoch = s.epoch := rfl
@[simp] theorem withFetchWord_tickets (s : State) (n w : Nat) : (s.withFetchWord n w).tickets = s.tickets := rfl

/-! ### Reading views -/

@[simp] theorem view_length (s : State) (b : Buf) (n : Nat) : (s.view b n).length = n := by
  simp [State.view]

@[simp] theorem inBytes_length (s : State) : s.inBytes.length = s.inLen.toNat := by
  simp [State.inBytes]

@[simp] theorem keyBytes_length (s : State) : s.keyBytes.length = s.keyLen.toNat := by
  simp [State.keyBytes]

@[simp] theorem ivBytes_length (s : State) : s.ivBytes.length = s.ivLen.toNat := by
  simp [State.ivBytes]

@[simp] theorem aadBytes_length (s : State) : s.aadBytes.length = s.aadLen.toNat := by
  simp [State.aadBytes]

@[simp] theorem outBytes_length (s : State) : s.outBytes.length = s.outLen.toNat := by
  simp [State.outBytes]

/-- Byte `k` of a view is the buffer's byte `k`. -/
theorem view_getElem (s : State) (b : Buf) (n k : Nat) (h : k < (s.view b n).length) :
    (s.view b n)[k] = s.byteAt (b.base + k) := by
  simp [State.view]

end Sys2Proof.Machine
end

