-- ==== Sys2Proof/Laws/Ops.lean ====
section
/-! SUPPORT. What the shared operations of a command can do: sequencing, the checks, the requests, the outcome. -/

namespace Sys2Proof.Machine

/-! ### Sequencing -/

@[simp] theorem cmd_ok_bind {α β : Type} (a : α) (f : α → Cmd β) : ((Except.ok a : Cmd α) >>= f) = f a := rfl

@[simp] theorem cmd_error_bind {α β : Type} (e : Halt) (f : α → Cmd β) :
    ((Except.error e : Cmd α) >>= f) = Except.error e := rfl

@[simp] theorem cmd_raise_bind {α β : Type} (c : Code) (n : Nat) (f : α → Cmd β) :
    ((raise c n : Cmd α) >>= f) = raise c n := rfl

/-- A sequence succeeds when its first part does and the rest does after it. -/
theorem cmd_bind_eq_ok {α β : Type} {x : Cmd α} {f : α → Cmd β} {b : β} :
    (x >>= f) = .ok b ↔ ∃ a, x = .ok a ∧ f a = .ok b := by
  cases x <;> simp

/-- A sequence stops where its first part stops, or where the rest does after it. -/
theorem cmd_bind_eq_error {α β : Type} {x : Cmd α} {f : α → Cmd β} {e : Halt} :
    (x >>= f) = .error e ↔ x = .error e ∨ ∃ a, x = .ok a ∧ f a = .error e := by
  cases x <;> simp

/-! ### Checks

A check either succeeds with no effect or raises (41_validator.md R150): it never waits, and it never
raises the code OK. -/

/-- What every check satisfies. -/
def IsCheck (c : Cmd Unit) : Prop := c = .ok () ∨ ∃ code arg, code ≠ .ok ∧ c = raise code arg

theorem isCheck_ite {p : Prop} [Decidable p] {code : Code} {arg : Nat} (h : code ≠ .ok) :
    IsCheck (if p then raise code arg else .ok ()) := by
  split
  · exact .inr ⟨code, arg, h, rfl⟩
  · exact .inl rfl

theorem isCheck_ite' {p : Prop} [Decidable p] {code : Code} {arg : Nat} (h : code ≠ .ok) :
    IsCheck (if p then .ok () else raise code arg) := by
  split
  · exact .inl rfl
  · exact .inr ⟨code, arg, h, rfl⟩

theorem IsCheck.bind {x y : Cmd Unit} (hx : IsCheck x) (hy : IsCheck y) : IsCheck (x >>= fun _ => y) := by
  rcases hx with rfl | ⟨c, a, h, rfl⟩
  · exact hy
  · exact .inr ⟨c, a, h, rfl⟩

theorem padEmptyCheck_isCheck (n : Nat) : IsCheck (padEmptyCheck n) := isCheck_ite (by decide)
theorem padBlockCheck_isCheck (n : Nat) : IsCheck (padBlockCheck n) := isCheck_ite (by decide)
theorem unpadAlignCheck_isCheck (n b : Nat) : IsCheck (unpadAlignCheck n b) := isCheck_ite (by decide)
theorem validKeySize_isCheck (n : Nat) : IsCheck (validKeySize n) := isCheck_ite' (by decide)
theorem validBlockSize_isCheck (n : Nat) : IsCheck (validBlockSize n) := isCheck_ite' (by decide)
theorem validIvSize_isCheck (n : Nat) : IsCheck (validIvSize n) := isCheck_ite' (by decide)
theorem ivEqual_isCheck (n b : Nat) : IsCheck (ivEqual n b) := isCheck_ite (by decide)
theorem ivSizeEquality_isCheck (n b : Nat) : IsCheck (ivSizeEquality n b) :=
  (validIvSize_isCheck n).bind ((validBlockSize_isCheck b).bind (ivEqual_isCheck n b))
theorem validCiphertext_isCheck (n b : Nat) : IsCheck (validCiphertext n b) := isCheck_ite (by decide)
theorem validStdNonceSize_isCheck (n : Nat) : IsCheck (validStdNonceSize n) := isCheck_ite (by decide)
theorem validNonceSize_isCheck (n : Nat) : IsCheck (validNonceSize n) := isCheck_ite (by decide)
theorem validTagSize_isCheck (n : Nat) : IsCheck (validTagSize n) := isCheck_ite (by decide)
theorem validDataSize_isCheck (n b : Nat) : IsCheck (validDataSize n b) := isCheck_ite (by decide)
theorem emptyData_isCheck (n : Nat) : IsCheck (emptyData n) := isCheck_ite (by decide)

theorem modeIvCheck_isCheck (m : BMode) (n : Nat) : IsCheck (modeIvCheck m n) := by
  cases m
  · exact .inl rfl
  all_goals exact ivSizeEquality_isCheck _ _

theorem encAlignCheck_isCheck (m : BMode) (n : Nat) : IsCheck (encAlignCheck m n) := by
  cases m
  · exact isCheck_ite (by decide)
  · exact isCheck_ite (by decide)
  all_goals exact .inl rfl

theorem decAlignCheck_isCheck (m : BMode) (n : Nat) : IsCheck (decAlignCheck m n) := by
  cases m
  · exact validCiphertext_isCheck _ _
  · exact validCiphertext_isCheck _ _
  all_goals exact .inl rfl

theorem nonceCheck_isCheck (v : GVar) (n : Nat) : IsCheck (nonceCheck v n) := by
  cases v
  · exact validStdNonceSize_isCheck _
  · exact validNonceSize_isCheck _
  · exact validStdNonceSize_isCheck _

theorem gcmDecSizeCheck_isCheck (n t : Nat) : IsCheck (gcmDecSizeCheck n t) := by
  unfold gcmDecSizeCheck
  split
  · exact validDataSize_isCheck _ _
  · exact .inl rfl

theorem gcmShortCheck_isCheck (n t : Nat) : IsCheck (gcmShortCheck n t) := isCheck_ite (by decide)

theorem capCheck_isCheck (cap : Nat) (ls : List Nat) : IsCheck (capCheck cap ls) := by
  induction ls with
  | nil => exact .inl rfl
  | cons l ls ih =>
    unfold capCheck
    split
    · exact .inr ⟨_, _, by decide, rfl⟩
    · exact ih

/-- The capacity check passes exactly when every length fits. -/
theorem capCheck_eq_ok (cap : Nat) (ls : List Nat) : capCheck cap ls = .ok () ↔ ∀ l ∈ ls, l ≤ cap := by
  induction ls with
  | nil => simp [capCheck]
  | cons l ls ih =>
    unfold capCheck
    split
    · rename_i h
      simp only [raise, List.mem_cons, forall_eq_or_imp]
      constructor
      · intro h'; exact absurd h' (by simp)
      · rintro ⟨h', -⟩; omega
    · rename_i h
      simp only [ih, List.mem_cons, forall_eq_or_imp]
      constructor
      · exact fun h' => ⟨by omega, h'⟩
      · exact fun h' => h'.2

/-- Where the capacity check fails it reports the first length that does not fit. -/
theorem capCheck_append_cons (cap l : Nat) (ls rest : List Nat) (h : ∀ x ∈ ls, x ≤ cap) (hl : cap < l) :
    capCheck cap (ls ++ l :: rest) = raise .capacityExceeded l := by
  induction ls with
  | nil => simp [capCheck, hl]
  | cons x ls ih =>
    have hx : ¬ x > cap := by have := h x (by simp); omega
    simp only [List.cons_append, capCheck, hx, if_false]
    exact ih fun y hy => h y (List.mem_cons_of_mem _ hy)

theorem emptyData_eq_ok (n : Nat) : emptyData n = .ok () ↔ n ≠ 0 := by
  unfold emptyData raise; split <;> simp_all

theorem validKeySize_eq_ok (n : Nat) : validKeySize n = .ok () ↔ n = 16 ∨ n = 24 ∨ n = 32 := by
  unfold validKeySize raise aesSize; split <;> simp_all [or_assoc]

theorem ivSizeEquality_eq_ok (n : Nat) : ivSizeEquality n Config.cipherBlock = .ok () ↔ n = 16 := by
  unfold ivSizeEquality validIvSize validBlockSize ivEqual raise aesSize
  constructor
  · intro h
    split at h
    · simp only [cmd_ok_bind] at h
      simpa [Config.cipherBlock] using h
    · simp at h
  · rintro rfl; decide

theorem modeIvCheck_eq_ok (m : BMode) (n : Nat) : modeIvCheck m n = .ok () ↔ m = .ecb ∨ n = 16 := by
  cases m <;> simp [modeIvCheck, ivSizeEquality_eq_ok]

theorem validTagSize_eq_ok (t : Nat) : validTagSize t = .ok () ↔ 12 ≤ t ∧ t ≤ 16 := by
  unfold validTagSize raise
  split
  · simp only [reduceCtorEq, false_iff]; omega
  · simp only [true_iff]; omega

theorem nonceCheck_eq_ok (v : GVar) (n : Nat) :
    nonceCheck v n = .ok () ↔ (v = .nonce ∧ n ≠ 0) ∨ (v ≠ .nonce ∧ n = 12) := by
  cases v <;> simp [nonceCheck, validStdNonceSize, validNonceSize, raise]

/-! ### Requests and answers -/

/-- An answer in use is one that can be the answer to its request. -/
theorem findAnswer_fits {xs : List Answered} {q : Request} {a : Answer} (h : findAnswer xs q = some a) :
    q.fits a = true ∧ ⟨q, a⟩ ∈ xs := by
  induction xs with
  | nil => simp [findAnswer] at h
  | cons x xs ih =>
    unfold findAnswer at h
    split at h
    · rename_i hx
      obtain ⟨rfl, hf⟩ := hx
      cases h
      exact ⟨hf, by simp⟩
    · exact ⟨(ih h).1, List.mem_cons_of_mem _ (ih h).2⟩

theorem ask_fits {s : State} {q : Request} {a : Answer} (h : s.ask q = some a) : q.fits a = true :=
  (findAnswer_fits h).1

/-- A further answer leaves the answers there are as they are. -/
theorem findAnswer_append (xs : List Answered) (q : Request) (a : Answer) (q' : Request)
    (h : q.fits a = true) :
    findAnswer (xs ++ [⟨q, a⟩]) q' =
      match findAnswer xs q' with
      | some x => some x
      | none => if q = q' then some a else none := by
  induction xs with
  | nil =>
    by_cases hq : q = q'
    · subst hq; simp [findAnswer, h]
    · simp [findAnswer, hq]
  | cons x xs ih =>
    simp only [List.cons_append, findAnswer]
    split
    · rfl
    · exact ih

/-- A block request is answered with a block (42_modes.md R209). -/
theorem ask_encryptBlock {s : State} {k x : Bytes} {a : Answer} (h : s.ask (.encryptBlock k x) = some a) :
    ∃ y, a = .bytes y ∧ y.length = 16 := by
  have hf := ask_fits h
  cases a <;> simp_all [Request.fits, Config.cipherBlock]

theorem ask_decryptBlock {s : State} {k x : Bytes} {a : Answer} (h : s.ask (.decryptBlock k x) = some a) :
    ∃ y, a = .bytes y ∧ y.length = 16 := by
  have hf := ask_fits h
  cases a <;> simp_all [Request.fits, Config.cipherBlock]

/-- The requests that construct a collaborator (60_exceptions.md R251). -/
def Request.isInit : Request → Bool
  | .cipherInit _ | .aeadInit _ _ => true
  | .encryptBlock _ _ | .decryptBlock _ _ | .sealData _ _ _ _ _ | .openData _ _ _ _ _ | .rngFill _ => false

/-- A construction request succeeds, fails, or waits. -/
theorem askInit_cases (s : State) (q : Request) :
    (s.ask q = none ∧ askInit s q = .error (.wait q)) ∨
    (s.ask q = some .fail ∧ askInit s q = raise .cipherInitFailed 0) ∨
    (∃ a, a ≠ .fail ∧ s.ask q = some a ∧ askInit s q = .ok ()) := by
  unfold askInit
  rcases h : s.ask q with _ | a
  · exact .inl ⟨rfl, rfl⟩
  · cases a
    · exact .inr (.inr ⟨_, by simp, rfl, rfl⟩)
    · exact .inr (.inr ⟨_, by simp, rfl, rfl⟩)
    · exact .inr (.inl ⟨rfl, rfl⟩)

/-- A request for bytes gives its bytes, raises, or waits. -/
theorem askBytes_cases (s : State) (q : Request) (code : Code) (arg : Nat) :
    (s.ask q = none ∧ askBytes s q code arg = .error (.wait q)) ∨
    (∃ b, s.ask q = some (.bytes b) ∧ askBytes s q code arg = .ok b) ∨
    (∃ a, (∀ b, a ≠ .bytes b) ∧ s.ask q = some a ∧ askBytes s q code arg = raise code arg) := by
  unfold askBytes
  rcases h : s.ask q with _ | a
  · exact .inl ⟨rfl, rfl⟩
  · cases a
    · exact .inr (.inr ⟨_, by simp, rfl, rfl⟩)
    · exact .inr (.inl ⟨_, rfl, rfl⟩)
    · exact .inr (.inr ⟨_, by simp, rfl, rfl⟩)

/-- A Seal request gives its bytes or waits. -/
theorem askData_cases (s : State) (q : Request) :
    askData s q = .error (.wait q) ∨ ∃ b, s.ask q = some (.bytes b) ∧ askData s q = .ok b := by
  unfold askData
  rcases h : s.ask q with _ | a
  · exact .inl rfl
  · cases a
    · exact .inl rfl
    · exact .inr ⟨_, rfl, rfl⟩
    · exact .inl rfl

/-- A list of requests is through when each has its answer. -/
theorem askAll_eq_ok (s : State) (qs : List Request) :
    askAll s qs = .ok () ↔ ∀ q ∈ qs, ∃ a, s.ask q = some a := by
  induction qs with
  | nil => simp [askAll]
  | cons q qs ih =>
    unfold askAll
    rcases h : s.ask q with _ | a
    · simp [h]
    · simp [h, ih]

/-- Where a list of requests waits, it waits for one of them that has no answer. -/
theorem askAll_eq_error {s : State} {qs : List Request} {e : Halt} (h : askAll s qs = .error e) :
    ∃ q ∈ qs, s.ask q = none ∧ e = .wait q := by
  induction qs with
  | nil => simp [askAll] at h
  | cons q qs ih =>
    unfold askAll at h
    rcases hq : s.ask q with _ | a
    · rw [hq] at h
      cases h
      exact ⟨q, by simp, hq, rfl⟩
    · rw [hq] at h
      obtain ⟨q', hm, hn, he⟩ := ih h
      exact ⟨q', List.mem_cons_of_mem _ hm, hn, he⟩

/-! ### The outcome -/

@[simp] theorem conclude_ok (s : State) (out : Bytes) : conclude s (.ok out) = finish s out := rfl

@[simp] theorem conclude_raise (s : State) (code : Code) (arg : Nat) :
    conclude s (raise code arg) = raiseErr s code arg := rfl

@[simp] theorem conclude_wait (s : State) (q : Request) : conclude s (.error (.wait q)) = waitFor s q := rfl

/-- A wait changes the outstanding request and the request counter, nothing else. -/
theorem waitFor_eq (s : State) (q : Request) :
    ∃ o n, waitFor s q = { s with pending := some o, tickets := n } ∧ o.request = q ∧ s.tickets ≤ n ∧
      (n = s.tickets ∧ s.pending = some o ∨ n = s.tickets + 1 ∧ o.ticket = s.tickets) := by
  unfold waitFor
  rcases h : s.pending with _ | o
  · exact ⟨_, _, rfl, rfl, by omega, .inr ⟨rfl, rfl⟩⟩
  · by_cases ho : o.request = q
    · refine ⟨o, s.tickets, ?_, ho, Nat.le_refl _, .inl ⟨rfl, rfl⟩⟩
      cases s
      simp_all
    · exact ⟨⟨s.tickets, q⟩, s.tickets + 1, by simp [ho], rfl, by omega, .inr ⟨rfl, rfl⟩⟩

/-- What the arrival of an answer can do: nothing, or the outstanding request is answered. -/
theorem answerArrives_next {s t : State} {k : Nat} {a : Answer} (h : answerArrives s k a = .next t) :
    t = s ∨ ∃ o, s.pending = some o ∧ o.ticket = k ∧ lawfulAnswer s.transcript o.request a = true ∧
      t = { s with
        pending    := none
        answers    := s.answers ++ [⟨o.request, a⟩]
        transcript := s.transcript ++ [⟨o.request, a⟩] } := by
  unfold answerArrives at h
  rcases hp : s.pending with _ | o
  · rw [hp] at h; cases h; exact .inl rfl
  · rw [hp] at h
    simp only at h
    split at h
    · rename_i hk
      split at h
      · rename_i hf
        cases h
        exact .inr ⟨o, rfl, hk, hf, rfl⟩
      · cases h
    · cases h; exact .inl rfl

end Sys2Proof.Machine
end

