-- ==== Sys2Proof/Laws/Padding.lean ====
section
/-! SUPPORT. The lengths of paddings and what PAD and UNPAD can do. -/

namespace Sys2Proof.Machine

/-- The overhead is between 1 and the block size (40_padding.md R100). -/
theorem ovh_bounds (n b : Nat) (h : 0 < b) : 1 ≤ ovh n b ∧ ovh n b ≤ b := by
  have := Nat.mod_lt n h
  unfold ovh
  omega

/-- Data and overhead fill whole blocks. -/
theorem add_ovh_mod (n b : Nat) (h : 0 < b) : (n + ovh n b) % b = 0 := by
  have h1 := Nat.mod_lt n h
  have h2 := Nat.div_add_mod n b
  have h3 : n + ovh n b = b * (n / b + 1) := by
    unfold ovh
    rw [Nat.mul_add, Nat.mul_one]
    omega
  rw [h3, Nat.mul_mod_right]

/-- The padding block size of ENC and DEC is not 0 (40_padding.md R101). -/
theorem padB_cipherBlock_pos (k : Scheme) : 0 < padB k Config.cipherBlock := by
  cases k <;> decide

/-- What `Trailer` can do: give `ov` bytes, or, for ISO10126 with a filler, wait for or fail on the
randomness source (40_padding.md R102). -/
theorem trailer_cases (s : State) (sch : Scheme) (ov : Nat) (h : 1 ≤ ov) :
    (∃ t, trailer s sch ov = .ok t ∧ t.length = ov) ∨
    (sch = .iso10126 ∧ ov ≠ 1 ∧
      (trailer s sch ov = .error (.wait (.rngFill (ov - 1))) ∨
        trailer s sch ov = raise .entropyError (ov - 1))) := by
  cases sch with
  | iso10126 =>
    by_cases h1 : ov = 1
    · exact .inl ⟨[0x01], by simp [trailer, h1], by simp [h1]⟩
    · simp only [trailer, h1, if_false]
      rcases askBytes_cases s (.rngFill (ov - 1)) .entropyError (ov - 1) with
        ⟨-, he⟩ | ⟨b, ha, he⟩ | ⟨a, -, -, he⟩
      · rw [he]; exact .inr ⟨trivial, h1, .inl rfl⟩
      · rw [he]
        have hf := ask_fits ha
        simp only [Request.fits, beq_iff_eq] at hf
        exact .inl ⟨_, rfl, by simp [hf]; omega⟩
      · rw [he]; exact .inr ⟨trivial, h1, .inr rfl⟩
  | zero | bit | pkcs7 | pkcs5 | x923 | iso7816 =>
    exact .inl ⟨_, rfl, by simp [repeatByte]; try omega⟩

/-- A removal never lengthens (40_padding.md R103). -/
theorem strip_length {sch : Scheme} {d out : Bytes} {b : Nat} (h : strip sch d b = some out) :
    out.length ≤ d.length := by
  have hz : (dropZerosReversed d).length ≤ d.length := by
    unfold dropZerosReversed
    simpa using (List.dropWhile_sublist (fun x : Byte => x == 0x00) (l := d.reverse)).length_le
  cases sch <;> simp only [strip] at h
  case zero => cases h; simpa using hz
  case bit =>
    split at h
    · cases h
    · rename_i x xs hx
      rw [hx] at hz
      split at h
      · cases h; simp at hz ⊢; omega
      · cases h
  case pkcs7 | pkcs5 | x923 =>
    split at h
    · cases h
    · split at h
      · cases h; simp
      · cases h
  case iso7816 =>
    split at h
    · cases h; simp
    · cases h
  case iso10126 =>
    split at h
    · cases h
    · cases h; simp

/-- `Strip` in a command gives no more bytes than it takes, or raises INVALID_DATA. -/
theorem stripOr_cases (sch : Scheme) (d : Bytes) (b : Nat) :
    (∃ out, strip sch d b = some out ∧ stripOr sch d b = .ok out ∧ out.length ≤ d.length) ∨
    (strip sch d b = none ∧ stripOr sch d b = raise .invalidData d.length) := by
  unfold stripOr
  rcases h : strip sch d b with _ | out
  · exact .inr ⟨rfl, rfl⟩
  · exact .inl ⟨out, rfl, rfl, strip_length h⟩

/-- What a command's pseudocode can end in, for a capacity: an output that fits, an error other than OK,
or a wait for a request that has no answer. -/
def GoodEnd (s : State) (c : Cmd Bytes) : Prop :=
  (∃ out, c = .ok out ∧ out.length ≤ s.params.bufCap) ∨
  (∃ code arg, code ≠ .ok ∧ c = raise code arg) ∨
  (∃ q, s.ask q = none ∧ c = .error (.wait q))

/-- A check in front keeps a good end. -/
theorem GoodEnd.check {s : State} {x : Cmd Unit} {c : Cmd Bytes} (hx : IsCheck x)
    (h : x = .ok () → GoodEnd s c) : GoodEnd s (x >>= fun _ => c) := by
  rcases hx with rfl | ⟨code, arg, hc, rfl⟩
  · exact h rfl
  · exact .inr (.inl ⟨code, arg, hc, rfl⟩)

/-- A construction request in front keeps a good end. -/
theorem GoodEnd.init {s : State} {q : Request} {c : Cmd Bytes} (h : GoodEnd s c) :
    GoodEnd s (askInit s q >>= fun _ => c) := by
  rcases askInit_cases s q with ⟨hn, he⟩ | ⟨-, he⟩ | ⟨a, -, -, he⟩
  · rw [he]; exact .inr (.inr ⟨q, hn, rfl⟩)
  · rw [he]; exact .inr (.inl ⟨_, _, by decide, rfl⟩)
  · rw [he]; exact h

/-- `Trailer` in front keeps a good end. -/
theorem GoodEnd.trailer {s : State} {sch : Scheme} {ov : Nat} {f : Bytes → Cmd Bytes} (hov : 1 ≤ ov)
    (h : ∀ t, t.length = ov → GoodEnd s (f t)) : GoodEnd s (Machine.trailer s sch ov >>= f) := by
  rcases trailer_cases s sch ov hov with ⟨t, ht, hl⟩ | ⟨rfl, h1, he | he⟩
  · rw [ht]; exact h t hl
  · rw [he]
    refine .inr (.inr ⟨.rngFill (ov - 1), ?_, rfl⟩)
    simp only [Machine.trailer, h1, if_false] at he
    rcases askBytes_cases s (.rngFill (ov - 1)) .entropyError (ov - 1) with
      ⟨hn, -⟩ | ⟨b, -, hb⟩ | ⟨a, -, -, hb⟩
    · exact hn
    · rw [hb] at he; simp at he
    · rw [hb] at he; simp [raise] at he
  · rw [he]; exact .inr (.inl ⟨_, _, by decide, rfl⟩)

theorem padCmd_goodEnd (sch : Scheme) (s : State) : GoodEnd s (padCmd sch s) := by
  unfold padCmd
  refine .check (padEmptyCheck_isCheck _) fun _ => .check (padBlockCheck_isCheck _) fun hb =>
    .check (capCheck_isCheck _ _) fun hc => ?_
  have hb0 : padB sch s.blksz.toNat ≠ 0 := by
    intro h0; simp [padBlockCheck, h0, raise] at hb
  refine GoodEnd.trailer (ovh_bounds _ _ (by omega)).1 fun t ht => .inl ⟨_, rfl, ?_⟩
  have := (capCheck_eq_ok _ _).1 hc (s.inLen.toNat + ovh s.inLen.toNat (padB sch s.blksz.toNat)) (by simp)
  simp [ht]
  omega

theorem unpadCmd_goodEnd (sch : Scheme) (s : State) : GoodEnd s (unpadCmd sch s) := by
  unfold unpadCmd
  refine .check (padEmptyCheck_isCheck _) fun _ => .check (padBlockCheck_isCheck _) fun _ =>
    .check (unpadAlignCheck_isCheck _ _) fun _ => .check (capCheck_isCheck _ _) fun hc => ?_
  have hcap := (capCheck_eq_ok _ _).1 hc s.inLen.toNat (by simp)
  rcases stripOr_cases sch s.inBytes (padB sch s.blksz.toNat) with ⟨out, -, he, hl⟩ | ⟨-, he⟩
  · rw [he]
    exact .inl ⟨out, rfl, by simp at hl; omega⟩
  · rw [he]
    exact .inr (.inl ⟨_, _, by decide, rfl⟩)

theorem valCmd_goodEnd (s : State) {p : Cmd Unit} (h : IsCheck p) : GoodEnd s (valCmd p) := by
  unfold valCmd
  exact .check h fun _ => .inl ⟨[], rfl, by simp⟩

end Sys2Proof.Machine
end

