-- ==== Sys2Proof/Laws/Modes.lean ====
section
/-! SUPPORT. The block split, the lengths of the transforms, and what ENC and DEC can do. -/

namespace Sys2Proof.Machine

/-! ### The block split (42_modes.md R181) -/

theorem blocksUpTo_flatten (n : Nat) (p : Bytes) (h : p.length ≤ n) : (blocksUpTo n p).flatten = p := by
  induction n generalizing p with
  | zero => simp_all [blocksUpTo]
  | succ n ih =>
    unfold blocksUpTo
    split
    · rename_i h0; simp_all
    · rename_i h0
      have hp : p.length ≠ 0 := by simpa [List.isEmpty_iff] using h0
      rw [List.flatten_cons, ih _ (by simp [Config.cipherBlock]; omega), List.take_append_drop]

/-- The blocks of a sequence joined are the sequence. -/
@[simp] theorem blocks_flatten (p : Bytes) : (blocks p).flatten = p :=
  blocksUpTo_flatten _ _ (Nat.le_refl _)

theorem blocksUpTo_sizes (n : Nat) (p b : Bytes) (h : b ∈ blocksUpTo n p) :
    1 ≤ b.length ∧ b.length ≤ 16 := by
  induction n generalizing p with
  | zero => simp [blocksUpTo] at h
  | succ n ih =>
    unfold blocksUpTo at h
    split at h
    · simp at h
    · rename_i h0
      have hp : p.length ≠ 0 := by simpa [List.isEmpty_iff] using h0
      rcases List.mem_cons.1 h with rfl | h
      · simp [Config.cipherBlock]; omega
      · exact ih _ h

/-- Every block has between 1 and 16 bytes. -/
theorem blocks_sizes {p b : Bytes} (h : b ∈ blocks p) : 1 ≤ b.length ∧ b.length ≤ 16 :=
  blocksUpTo_sizes _ _ _ h

theorem blocksUpTo_full (n : Nat) (p b : Bytes) (hp : p.length % 16 = 0) (h : b ∈ blocksUpTo n p) :
    b.length = 16 := by
  induction n generalizing p with
  | zero => simp [blocksUpTo] at h
  | succ n ih =>
    unfold blocksUpTo at h
    split at h
    · simp at h
    · rename_i h0
      have h1 : p.length ≠ 0 := by simpa [List.isEmpty_iff] using h0
      rcases List.mem_cons.1 h with rfl | h
      · simp [Config.cipherBlock]; omega
      · exact ih _ (by simp [Config.cipherBlock]; omega) h

/-- Every block of an aligned sequence is full. -/
theorem blocks_full {p b : Bytes} (hp : p.length % 16 = 0) (h : b ∈ blocks p) : b.length = 16 :=
  blocksUpTo_full _ _ _ hp h

/-! ### Lengths of the transforms -/

@[simp] theorem xorBytes_length (a b : Bytes) : (xorBytes a b).length = min a.length b.length := by
  simp [xorBytes]

/-- Outputs as long as the blocks they come from, joined, are as long as the blocks joined. -/
theorem joined_length_of_sizes {calls : List BlockCall} {bs : List Bytes}
    (h : calls.map (fun x => x.output.length) = bs.map List.length) :
    (joined calls).length = bs.flatten.length := by
  simp only [joined, List.length_flatten, List.map_map]
  have : (calls.map (List.length ∘ BlockCall.output)) = bs.map List.length := h
  rw [this]

theorem ecbCalls_sizes (f : Bytes → Bytes) (bs : List Bytes)
    (hf : ∀ x ∈ ecbCalls f bs, (f x.input).length = 16) (hb : ∀ b ∈ bs, b.length = 16) :
    (ecbCalls f bs).map (fun x => x.output.length) = bs.map List.length := by
  induction bs with
  | nil => rfl
  | cons p ps ih =>
    simp only [ecbCalls, List.forall_mem_cons, List.map_cons] at *
    rw [ih hf.2 hb.2, hf.1, hb.1]

theorem cbcEncCalls_sizes (e : Bytes → Bytes) (prev : Bytes) (bs : List Bytes)
    (hf : ∀ x ∈ cbcEncCalls e prev bs, (e x.input).length = 16) (hb : ∀ b ∈ bs, b.length = 16) :
    (cbcEncCalls e prev bs).map (fun x => x.output.length) = bs.map List.length := by
  induction bs generalizing prev with
  | nil => rfl
  | cons p ps ih =>
    simp only [cbcEncCalls, List.forall_mem_cons, List.map_cons] at *
    rw [ih _ hf.2 hb.2, hf.1, hb.1]

theorem cbcDecCalls_sizes (d : Bytes → Bytes) (prev : Bytes) (bs : List Bytes) (hp : prev.length = 16)
    (hf : ∀ x ∈ cbcDecCalls d prev bs, (d x.input).length = 16) (hb : ∀ b ∈ bs, b.length = 16) :
    (cbcDecCalls d prev bs).map (fun x => x.output.length) = bs.map List.length := by
  induction bs generalizing prev with
  | nil => rfl
  | cons c cs ih =>
    simp only [cbcDecCalls, List.forall_mem_cons, List.map_cons] at *
    rw [ih _ hb.1 hf.2 hb.2]
    simp [hf.1, hb.1, hp]

theorem cfbEncCalls_sizes (e : Bytes → Bytes) (prev : Bytes) (bs : List Bytes)
    (hf : ∀ x ∈ cfbEncCalls e prev bs, (e x.input).length = 16) (hb : ∀ b ∈ bs, b.length ≤ 16) :
    (cfbEncCalls e prev bs).map (fun x => x.output.length) = bs.map List.length := by
  induction bs generalizing prev with
  | nil => rfl
  | cons p ps ih =>
    simp only [cfbEncCalls, List.forall_mem_cons, List.map_cons] at *
    rw [ih _ hf.2 hb.2]
    simp [hf.1, hb.1]

theorem cfbDecCalls_sizes (e : Bytes → Bytes) (prev : Bytes) (bs : List Bytes)
    (hf : ∀ x ∈ cfbDecCalls e prev bs, (e x.input).length = 16) (hb : ∀ b ∈ bs, b.length ≤ 16) :
    (cfbDecCalls e prev bs).map (fun x => x.output.length) = bs.map List.length := by
  induction bs generalizing prev with
  | nil => rfl
  | cons p ps ih =>
    simp only [cfbDecCalls, List.forall_mem_cons, List.map_cons] at *
    rw [ih _ hf.2 hb.2]
    simp [hf.1, hb.1]

theorem ofbCalls_sizes (e : Bytes → Bytes) (prev : Bytes) (bs : List Bytes)
    (hf : ∀ x ∈ ofbCalls e prev bs, (e x.input).length = 16) (hb : ∀ b ∈ bs, b.length ≤ 16) :
    (ofbCalls e prev bs).map (fun x => x.output.length) = bs.map List.length := by
  induction bs generalizing prev with
  | nil => rfl
  | cons p ps ih =>
    simp only [ofbCalls, List.forall_mem_cons, List.map_cons] at *
    rw [ih _ hf.2 hb.2]
    simp [hf.1, hb.1]

theorem ctrCalls_sizes (e : Bytes → Bytes) (t : Bytes) (bs : List Bytes)
    (hf : ∀ x ∈ ctrCalls e t bs, (e x.input).length = 16) (hb : ∀ b ∈ bs, b.length ≤ 16) :
    (ctrCalls e t bs).map (fun x => x.output.length) = bs.map List.length := by
  induction bs generalizing t with
  | nil => rfl
  | cons p ps ih =>
    simp only [ctrCalls, List.forall_mem_cons, List.map_cons] at *
    rw [ih _ hf.2 hb.2]
    simp [hf.1, hb.1]

/-- Encryption keeps the length, where the cipher gives 16-byte blocks (42_modes.md R211). -/
theorem encCalls_length (m : BMode) (e : Bytes → Bytes) (iv p : Bytes)
    (hf : ∀ x ∈ encCalls m e iv p, (e x.input).length = 16)
    (hp : m = .ecb ∨ m = .cbc → p.length % 16 = 0) : (joined (encCalls m e iv p)).length = p.length := by
  have hle : ∀ b ∈ blocks p, b.length ≤ 16 := fun b hb => (blocks_sizes hb).2
  have hall : (blocks p).flatten.length = p.length := by rw [blocks_flatten]
  rw [← hall]
  cases m <;> apply joined_length_of_sizes
  · exact ecbCalls_sizes _ _ hf fun b hb => blocks_full (hp (.inl rfl)) hb
  · exact cbcEncCalls_sizes _ _ _ hf fun b hb => blocks_full (hp (.inr rfl)) hb
  · exact cfbEncCalls_sizes _ _ _ hf hle
  · exact ofbCalls_sizes _ _ _ hf hle
  · exact ctrCalls_sizes _ _ _ hf hle

/-- Decryption keeps the length, where the cipher gives 16-byte blocks (42_modes.md R211). -/
theorem decCalls_length (m : BMode) (f : Bytes → Bytes) (iv c : Bytes)
    (hf : ∀ x ∈ decCalls m f iv c, (f x.input).length = 16)
    (hiv : m = .cbc → iv.length = 16)
    (hp : m = .ecb ∨ m = .cbc → c.length % 16 = 0) : (joined (decCalls m f iv c)).length = c.length := by
  have hle : ∀ b ∈ blocks c, b.length ≤ 16 := fun b hb => (blocks_sizes hb).2
  have hall : (blocks c).flatten.length = c.length := by rw [blocks_flatten]
  rw [← hall]
  cases m <;> apply joined_length_of_sizes
  · exact ecbCalls_sizes _ _ hf fun b hb => blocks_full (hp (.inl rfl)) hb
  · exact cbcDecCalls_sizes _ _ _ (hiv rfl) hf fun b hb => blocks_full (hp (.inr rfl)) hb
  · exact cfbDecCalls_sizes _ _ _ hf hle
  · exact ofbCalls_sizes _ _ _ hf hle
  · exact ctrCalls_sizes _ _ _ hf hle

/-! ### What ENC and DEC can do -/

/-- Where every block request is answered, the cipher's answers are 16-byte blocks. -/
theorem cipherFn_length {s : State} {q : Bytes → Request} {xs : List Bytes}
    (hq : ∀ x a, s.ask (q x) = some a → ∃ y, a = .bytes y ∧ y.length = 16)
    (h : askAll s (xs.map q) = .ok ()) : ∀ x ∈ xs, (s.cipherFn q x).length = 16 := by
  intro x hx
  obtain ⟨a, ha⟩ := (askAll_eq_ok _ _).1 h (q x) (List.mem_map_of_mem hx)
  obtain ⟨y, rfl, hy⟩ := hq x a ha
  simp [State.cipherFn, ha, hy]

theorem ask_decRequest {s : State} {m : BMode} {k x : Bytes} {a : Answer}
    (h : s.ask (decRequest m k x) = some a) : ∃ y, a = .bytes y ∧ y.length = 16 := by
  cases m
  · exact ask_decryptBlock h
  · exact ask_decryptBlock h
  · exact ask_encryptBlock h
  · exact ask_encryptBlock h
  · exact ask_encryptBlock h

/-- The block requests of a transform give its output, or wait. -/
theorem runBlocks_cases (s : State) (q : Bytes → Request) (calls : List BlockCall) :
    (askAll s ((calls.map BlockCall.input).map q) = .ok () ∧ runBlocks s q calls = .ok (joined calls)) ∨
    (∃ r, s.ask r = none ∧ runBlocks s q calls = .error (.wait r)) := by
  have hm : (calls.map fun x => q x.input) = (calls.map BlockCall.input).map q := by simp
  unfold runBlocks
  rw [hm]
  rcases h : askAll s ((calls.map BlockCall.input).map q) with e | ⟨⟩
  · obtain ⟨r, -, hn, rfl⟩ := askAll_eq_error h
    exact .inr ⟨r, hn, rfl⟩
  · exact .inl ⟨rfl, rfl⟩

theorem modeIv_length {m : BMode} {s : State} (h : modeIvCheck m s.ivLen.toNat = .ok ()) :
    m = .cbc → s.ivBytes.length = 16 := by
  rintro rfl
  have := (modeIvCheck_eq_ok _ _).1 h
  simpa using this

theorem encAlign_aligned {m : BMode} {pl : Nat} (h : encAlignCheck m pl = .ok ()) :
    m = .ecb ∨ m = .cbc → pl % 16 = 0 := by
  rintro (rfl | rfl) <;>
  · unfold encAlignCheck raise at h
    simpa [Config.cipherBlock] using h

theorem decAlign_aligned {m : BMode} {n : Nat} (h : decAlignCheck m n = .ok ()) :
    m = .ecb ∨ m = .cbc → n % 16 = 0 := by
  rintro (rfl | rfl) <;>
  · unfold decAlignCheck validCiphertext raise at h
    simpa [Config.cipherBlock] using h

/-- The block part of an encryption: an output as long as its input, or a wait. -/
theorem encRun_cases (m : BMode) (s : State) (p : Bytes) (hp : m = .ecb ∨ m = .cbc → p.length % 16 = 0) :
    (∃ out, out.length = p.length ∧
      runBlocks s (.encryptBlock s.keyBytes)
        (encCalls m (s.cipherFn (.encryptBlock s.keyBytes)) s.ivBytes p) = .ok out) ∨
    (∃ r, s.ask r = none ∧
      runBlocks s (.encryptBlock s.keyBytes)
        (encCalls m (s.cipherFn (.encryptBlock s.keyBytes)) s.ivBytes p) = .error (.wait r)) := by
  rcases runBlocks_cases s (.encryptBlock s.keyBytes)
    (encCalls m (s.cipherFn (.encryptBlock s.keyBytes)) s.ivBytes p) with ⟨ha, he⟩ | h
  · refine .inl ⟨_, ?_, he⟩
    have := cipherFn_length (fun x a => ask_encryptBlock) ha
    exact encCalls_length _ _ _ _ (fun x hx => this _ (List.mem_map_of_mem hx)) hp
  · exact .inr h

/-- The block part of a decryption: an output as long as its input, or a wait. -/
theorem decRun_cases (m : BMode) (s : State) (hiv : m = .cbc → s.ivBytes.length = 16)
    (hc : m = .ecb ∨ m = .cbc → s.inLen.toNat % 16 = 0) :
    (∃ out, out.length = s.inLen.toNat ∧
      runBlocks s (decRequest m s.keyBytes)
        (decCalls m (s.cipherFn (decRequest m s.keyBytes)) s.ivBytes s.inBytes) = .ok out) ∨
    (∃ r, s.ask r = none ∧
      runBlocks s (decRequest m s.keyBytes)
        (decCalls m (s.cipherFn (decRequest m s.keyBytes)) s.ivBytes s.inBytes) = .error (.wait r)) := by
  rcases runBlocks_cases s (decRequest m s.keyBytes)
    (decCalls m (s.cipherFn (decRequest m s.keyBytes)) s.ivBytes s.inBytes) with ⟨ha, he⟩ | h
  · refine .inl ⟨_, ?_, he⟩
    have := cipherFn_length (fun x a => ask_decRequest) ha
    rw [decCalls_length _ _ _ _ (fun x hx => this _ (List.mem_map_of_mem hx)) hiv (by simpa using hc)]
    simp
  · exact .inr h

theorem encBlk_goodEnd (m : BMode) (sch : Option Scheme) (s : State) : GoodEnd s (encBlk m sch s) := by
  unfold encBlk
  refine .check (emptyData_isCheck _) fun _ => .check (validKeySize_isCheck _) fun _ =>
    .check (modeIvCheck_isCheck _ _) fun _ => .init <| .check (encAlignCheck_isCheck _ _) fun hal =>
    .check (capCheck_isCheck _ _) fun hc => ?_
  have hcap := (capCheck_eq_ok _ _).1 hc (paddedLen sch s.inLen.toNat) (by simp)
  have finishes : ∀ p : Bytes, p.length = paddedLen sch s.inLen.toNat →
      GoodEnd s (runBlocks s (.encryptBlock s.keyBytes)
        (encCalls m (s.cipherFn (.encryptBlock s.keyBytes)) s.ivBytes p)) := by
    intro p hp
    rcases encRun_cases m s p (by rw [hp]; exact encAlign_aligned hal) with ⟨out, hl, he⟩ | ⟨r, hn, he⟩
    · exact .inl ⟨out, he, by omega⟩
    · exact .inr (.inr ⟨r, hn, he⟩)
  cases sch with
  | none => exact finishes s.inBytes (by simp [paddedLen])
  | some k =>
    simp only [encInput, bind_assoc, cmd_ok_bind]
    refine GoodEnd.trailer (ovh_bounds _ _ (padB_cipherBlock_pos k)).1 fun t ht => ?_
    exact finishes _ (by simp [paddedLen, ht])

theorem decBlk_goodEnd (m : BMode) (sch : Option Scheme) (s : State) : GoodEnd s (decBlk m sch s) := by
  unfold decBlk
  refine .check (emptyData_isCheck _) fun _ => .check (validKeySize_isCheck _) fun _ =>
    .check (modeIvCheck_isCheck _ _) fun hiv => .init <| .check (decAlignCheck_isCheck _ _) fun hal =>
    .check (capCheck_isCheck _ _) fun hc => ?_
  have hcap := (capCheck_eq_ok _ _).1 hc s.inLen.toNat (by cases m <;> simp [modeLengths])
  rcases decRun_cases m s (modeIv_length hiv) (decAlign_aligned hal) with ⟨p, hl, he⟩ | ⟨r, hn, he⟩
  · rw [he, cmd_ok_bind]
    cases sch with
    | none => exact .inl ⟨p, rfl, by omega⟩
    | some k =>
      refine .check (unpadAlignCheck_isCheck _ _) fun _ => ?_
      rcases stripOr_cases k p (padB k Config.cipherBlock) with ⟨out, -, ho, hle⟩ | ⟨-, ho⟩
      · rw [ho]; exact .inl ⟨out, rfl, by omega⟩
      · rw [ho]; exact .inr (.inl ⟨_, _, by decide, rfl⟩)
  · rw [he]
    exact .inr (.inr ⟨r, hn, rfl⟩)

end Sys2Proof.Machine
end

