-- ==== Sys2Proof/Laws/Dispatch.lean ====
section
/-! SUPPORT. exec, seen by the fields of the command: the pseudocode each command runs, and what any command
can do. -/

namespace Sys2Proof.Machine

theorem gcmEnc_goodEnd (v : GVar) (s : State) : GoodEnd s (gcmEnc v s) := by
  unfold gcmEnc
  refine .check (emptyData_isCheck _) fun _ => .check (validKeySize_isCheck _) fun _ =>
    .check (nonceCheck_isCheck _ _) fun _ => .check (validTagSize_isCheck _) fun _ =>
    .init <| .init <| .check (validDataSize_isCheck _ _) fun _ => .check (capCheck_isCheck _ _) fun hc => ?_
  have hcap := (capCheck_eq_ok _ _).1 hc (s.inLen.toNat + s.tagSize v) (by simp)
  unfold askData
  rcases h : s.ask (.sealData (s.tagSize v) s.keyBytes s.ivBytes s.inBytes s.aadBytes) with _ | a
  · exact .inr (.inr ⟨_, h, rfl⟩)
  · have hf := ask_fits h
    cases a with
    | bytes b =>
      simp only [Request.fits, beq_iff_eq, inBytes_length] at hf
      exact .inl ⟨b, rfl, by omega⟩
    | ok => simp [Request.fits] at hf
    | fail => simp [Request.fits] at hf

theorem gcmDec_goodEnd (v : GVar) (s : State) : GoodEnd s (gcmDec v s) := by
  unfold gcmDec
  refine .check (emptyData_isCheck _) fun _ => .check (validKeySize_isCheck _) fun _ =>
    .check (nonceCheck_isCheck _ _) fun _ => .check (validTagSize_isCheck _) fun _ =>
    .init <| .init <| .check (gcmDecSizeCheck_isCheck _ _) fun _ => .check (capCheck_isCheck _ _) fun hc =>
    .check (gcmShortCheck_isCheck _ _) fun _ => ?_
  have hcap := (capCheck_eq_ok _ _).1 hc s.inLen.toNat (by simp)
  rcases askBytes_cases s (.openData (s.tagSize v) s.keyBytes s.ivBytes s.inBytes s.aadBytes)
    .authenticationFailed 0 with ⟨hn, he⟩ | ⟨b, ha, he⟩ | ⟨a, -, -, he⟩
  · rw [he]; exact .inr (.inr ⟨_, hn, rfl⟩)
  · rw [he]
    have hf := ask_fits ha
    simp only [Request.fits, beq_iff_eq, inBytes_length] at hf
    exact .inl ⟨b, rfl, by omega⟩
  · rw [he]; exact .inr (.inl ⟨_, _, by decide, rfl⟩)

/-- The predicate a VAL command runs, on ARG0 and ARG1 (41_validator.md R151 to R160). -/
def predCheck (p : Pred) (a b : Nat) : Cmd Unit :=
  match p with
  | .keysize => validKeySize a
  | .blocksize => validBlockSize a
  | .ivsize => validIvSize a
  | .iveq => ivSizeEquality a b
  | .ciphertext => validCiphertext a b
  | .stdnonce => validStdNonceSize a
  | .noncesize => validNonceSize a
  | .tagsize => validTagSize a
  | .datasize => validDataSize a b
  | .empty => emptyData a

theorem predCheck_isCheck (p : Pred) (a b : Nat) : IsCheck (predCheck p a b) := by
  cases p
  · exact validKeySize_isCheck _
  · exact validBlockSize_isCheck _
  · exact validIvSize_isCheck _
  · exact ivSizeEquality_isCheck _ _
  · exact validCiphertext_isCheck _ _
  · exact validStdNonceSize_isCheck _
  · exact validNonceSize_isCheck _
  · exact validTagSize_isCheck _
  · exact validDataSize_isCheck _ _
  · exact emptyData_isCheck _

/-- The pseudocode of a command (30_encoding.md R80). -/
def Command.body (c : Command) (s : State) : Cmd Bytes :=
  match c with
  | .pad k => padCmd k s
  | .unpad k => unpadCmd k s
  | .val p => valCmd (predCheck p s.arg0.toNat s.arg1.toNat)
  | .enc m k => encBlk m k s
  | .dec m k => decBlk m k s
  | .encGcm v => gcmEnc v s
  | .decGcm v => gcmDec v s

/-- exec runs the pseudocode of the command its fields select. -/
theorem exec_instr (c : Command) (s : State) : exec c.instr s = runCommand s (Command.body c s) := by
  cases c with
  | pad k => cases k <;> rfl
  | unpad k => cases k <;> rfl
  | val p => cases p <;> rfl
  | enc m k =>
    cases m <;> (cases k with | none => rfl | some k => cases k <;> rfl)
  | dec m k =>
    cases m <;> (cases k with | none => rfl | some k => cases k <;> rfl)
  | encGcm v => cases v <;> rfl
  | decGcm v => cases v <;> rfl

theorem exec_eq (i : Instr) (s : State) : exec i s = .next (conclude s (Command.body i.command s)) := by
  cases i <;> rfl

/-- Every command ends well: an output that fits, an error other than OK, or a wait for an answer. -/
theorem body_goodEnd (c : Command) (s : State) : GoodEnd s (Command.body c s) := by
  cases c with
  | pad k => exact padCmd_goodEnd k s
  | unpad k => exact unpadCmd_goodEnd k s
  | val p => exact valCmd_goodEnd s (predCheck_isCheck _ _ _)
  | enc m k => exact encBlk_goodEnd m k s
  | dec m k => exact decBlk_goodEnd m k s
  | encGcm v => exact gcmEnc_goodEnd v s
  | decGcm v => exact gcmDec_goodEnd v s

/-- Everything a command can do: it finishes with an output that fits, it fails with a code other than
OK, or it waits for a request that has no answer. It never faults and is never refused
(60_exceptions.md R240). -/
theorem exec_cases (i : Instr) (s : State) :
    (∃ out, out.length ≤ s.params.bufCap ∧ exec i s = .next (finish s out)) ∨
    (∃ code arg, code ≠ .ok ∧ exec i s = .next (raiseErr s code arg)) ∨
    (∃ q, s.ask q = none ∧ exec i s = .next (waitFor s q)) := by
  rw [exec_eq]
  rcases body_goodEnd i.command s with ⟨out, h, hl⟩ | ⟨c, a, hc, h⟩ | ⟨q, hq, h⟩
  · exact .inl ⟨out, hl, by rw [h]; rfl⟩
  · exact .inr (.inl ⟨c, a, hc, by rw [h]; rfl⟩)
  · exact .inr (.inr ⟨q, hq, by rw [h]; rfl⟩)

end Sys2Proof.Machine
end

