-- ==== Sys2Proof/Laws/Step.lean ====
section
/-! SUPPORT. What a step can do: one inversion per operation, cited by every proof about steps. -/

namespace Sys2Proof.Machine

/-- What the sequencer can do: nothing while Idle; while Busy the latched command, or the failure of an
illegal word. -/
theorem sequencerStep_cases (s : State) :
    (s.busy = false ∧ sequencerStep s = .next s) ∨
    (s.busy = true ∧ ∃ i, decode s.cmd = .ok i ∧ sequencerStep s = exec i s) ∨
    (s.busy = true ∧ (∃ e, decode s.cmd = .error e) ∧
      sequencerStep s = .next (raiseErr s .illegalCommand s.cmd.toNat)) := by
  unfold sequencerStep State.latched illegalCommand
  rcases hb : s.busy with _ | _
  · exact .inl ⟨rfl, by simp⟩
  · rcases hd : decode s.cmd with e | i
    · exact .inr (.inr ⟨rfl, ⟨e, rfl⟩, by simp⟩)
    · exact .inr (.inl ⟨rfl, i, rfl, by simp⟩)

/-- The sequencer's outcomes: idle, finish with an output that fits, failure with a code other than OK,
or a wait for a request that has no answer. -/
theorem sequencerStep_next {s t : State} (h : sequencerStep s = .next t) :
    (s.busy = false ∧ t = s) ∨
    (s.busy = true ∧ ∃ out, out.length ≤ s.params.bufCap ∧ t = finish s out) ∨
    (s.busy = true ∧ ∃ code arg, code ≠ .ok ∧ t = raiseErr s code arg) ∨
    (s.busy = true ∧ ∃ q, s.ask q = none ∧ t = waitFor s q) := by
  rcases sequencerStep_cases s with ⟨hb, he⟩ | ⟨hb, i, -, he⟩ | ⟨hb, -, he⟩
  · rw [he] at h; cases h; exact .inl ⟨hb, rfl⟩
  · rw [he] at h
    rcases exec_cases i s with ⟨out, hl, hx⟩ | ⟨c, a, hc, hx⟩ | ⟨q, hq, hx⟩
    · rw [hx] at h; cases h; exact .inr (.inl ⟨hb, out, hl, rfl⟩)
    · rw [hx] at h; cases h; exact .inr (.inr (.inl ⟨hb, c, a, hc, rfl⟩))
    · rw [hx] at h; cases h; exact .inr (.inr (.inr ⟨hb, q, hq, rfl⟩))
  · rw [he] at h; cases h
    exact .inr (.inr (.inl ⟨hb, _, _, by decide, rfl⟩))

/-- The sequencer never stops the machine. -/
theorem sequencerStep_is_next (s : State) : ∃ t, sequencerStep s = .next t := by
  rcases sequencerStep_cases s with ⟨-, he⟩ | ⟨-, i, -, he⟩ | ⟨-, -, he⟩
  · exact ⟨_, he⟩
  · exact ⟨_, he.trans (exec_eq i s)⟩
  · exact ⟨_, he⟩

/-- A write of one byte touches the storage only, and only at a host-writable buffer's byte below
BUF_CAP. -/
theorem writeByte_cases (s : State) (off : Nat) (b : Byte) :
    writeByte s off b = s ∨
    (withinRegion off < s.params.bufCap ∧ 1 ≤ regionOf off ∧ regionOf off ≤ 4 ∧
      writeByte s off b = { s with mem := s.mem.write off b }) := by
  unfold writeByte
  split
  · rename_i h; exact .inr ⟨h.1, h.2.1, h.2.2, rfl⟩
  · exact .inl rfl

/-- A buffer write touches the storage only. -/
theorem writeWindow_eq (s : State) (v : Word) (off w : Nat) :
    ∃ m, writeWindow s v off w = { s with mem := m } := by
  induction w with
  | zero => exact ⟨s.mem, rfl⟩
  | succ w ih =>
    obtain ⟨m, hm⟩ := ih
    unfold writeWindow
    rw [hm]
    rcases writeByte_cases { s with mem := m } (off + w) (v.extractLsb' (8 * w) 8) with h | ⟨-, -, -, h⟩
    · exact ⟨m, h⟩
    · exact ⟨_, h⟩

/-- What a bus access can do: it does not reach PADMODE; it reads; it writes; or it is a bus error. -/
theorem busAccess_next {a : Access} {s t : State} (h : busAccess a s = .next t) :
    t = s ∨
    (∃ off, a.kind = .read ∧ offsetOf s.params.base a.address = some off ∧ accessOk off a.width = true ∧
      t = busRead s off a.width) ∨
    (∃ off v, a.kind = .write v ∧ offsetOf s.params.base a.address = some off ∧
      accessOk off a.width = true ∧ t = busWrite s v off a.width) ∨
    t = { s with reply := some .busError } := by
  unfold busAccess at h
  split at h
  · cases h; exact .inl rfl
  · rename_i off ho
    split at h
    · rename_i hok
      split at h
      · rename_i hk; cases h; exact .inr (.inl ⟨off, hk, ho, hok, rfl⟩)
      · rename_i v hk; cases h; exact .inr (.inr (.inl ⟨off, v, hk, ho, hok, rfl⟩))
    · unfold busError at h
      split at h
      · cases h; exact .inr (.inr (.inr rfl))
      · cases h

/-- What a step can do, by whose turn it is. -/
theorem step_next {s t : State} (h : step s = .next t) :
    (∃ ts, (s.turns = [] ∧ ts = [] ∨ s.turns = .sequencer :: ts) ∧
      sequencerStep { s with turns := ts } = .next t) ∨
    (∃ a ts, s.turns = .host a :: ts ∧ busAccess a { s with turns := ts } = .next t) ∨
    (∃ k a ts, s.turns = .collaborator k a :: ts ∧ answerArrives { s with turns := ts } k a = .next t) ∨
    (∃ ts, s.turns = .reset :: ts ∧ t = resetEvent { s with turns := ts }) := by
  unfold step at h
  split at h
  · rename_i ht
    refine .inl ⟨[], .inl ⟨ht, rfl⟩, ?_⟩
    have : ({ s with turns := [] } : State) = s := by cases s; simp_all
    rw [this]; exact h
  · rename_i ts ht; exact .inl ⟨ts, .inr ht, h⟩
  · rename_i a ts ht; exact .inr (.inl ⟨a, ts, ht, h⟩)
  · rename_i k a ts ht; exact .inr (.inr (.inl ⟨k, a, ts, ht, h⟩))
  · rename_i ts ht; cases h; exact .inr (.inr (.inr ⟨ts, ht, rfl⟩))

end Sys2Proof.Machine
end

