-- ==== Sys2Proof/Laws/Bus.lean ====
section
/-! SUPPORT. One step by whose turn it is, and the small lemmas of bus accesses: addresses, widths, 64-bit
halves, reads, and the writes of one register. -/

namespace Sys2Proof.Machine

/-! ### One step, by whose turn it is -/

theorem step_sequencer {s : State} {ts : List Turn} (h : s.sequencerNext ts) :
    step s = sequencerStep { s with turns := ts } := by
  unfold step
  rcases h with h | ⟨h, rfl⟩
  · rw [h]
  · rw [h]; cases s; simp_all

theorem step_collaborator {s : State} {k : Nat} {a : Answer} {ts : List Turn}
    (h : s.turns = .collaborator k a :: ts) : step s = answerArrives { s with turns := ts } k a := by
  unfold step
  rw [h]

theorem step_reset {s : State} {ts : List Turn} (h : s.turns = .reset :: ts) :
    step s = .next (resetEvent { s with turns := ts }) := by
  unfold step
  rw [h]

/-- An address in the window selects its offset (20_memory.md R50). -/
theorem offsetOf_base (base off : Nat) (h : off < 2 ^ 32) : offsetOf base (base + off) = some off := by
  unfold offsetOf
  rw [if_pos (by omega)]
  congr 1
  omega

/-- The model's check of an access is the rule's (20_memory.md R53). -/
theorem accessOk_iff (off : Nat) (w : Width) : accessOk off w = true ↔ legalAccess off w := by
  cases w
  all_goals simp [accessOk, legalAccess, Width.bytes, regionOf]
  all_goals omega

/-- The host's turn: a bus access at an offset. -/
theorem step_host {s : State} {off : Nat} {w : Width} {k : AccessKind} {ts : List Turn}
    (h : s.hostNext off w k ts) :
    step s = busAccess ⟨s.params.base + off, w, k⟩ { s with turns := ts } := by
  unfold step
  rw [h.2]

theorem step_read {s : State} {off : Nat} {w : Width} {ts : List Turn}
    (h : s.hostNext off w .read ts) (hl : legalAccess off w) :
    step s = .next (busRead { s with turns := ts } off w) := by
  rw [step_host h]
  simp [busAccess, offsetOf_base _ _ h.1, (accessOk_iff off w).2 hl]

theorem step_write {s : State} {off : Nat} {w : Width} {v : Word} {ts : List Turn}
    (h : s.hostNext off w (.write v) ts) (hl : legalAccess off w) :
    step s = .next (busWrite { s with turns := ts } v off w) := by
  rw [step_host h]
  simp [busAccess, offsetOf_base _ _ h.1, (accessOk_iff off w).2 hl]

theorem step_illegalAccess {s : State} {off : Nat} {w : Width} {k : AccessKind} {ts : List Turn}
    (h : s.hostNext off w k ts) (hl : ¬ legalAccess off w) :
    step s = busError { s with turns := ts } := by
  rw [step_host h]
  simp [busAccess, offsetOf_base _ _ h.1, mt (accessOk_iff off w).1 hl]

/-! ### Halves of 64-bit registers (20_memory.md R55) -/

theorem loHalf_eq (d : DWord) : loHalf d = BitVec.ofNat 32 (d.toNat % 2 ^ 32) := by
  apply BitVec.eq_of_toNat_eq
  simp [loHalf]

theorem hiHalf_eq (d : DWord) : hiHalf d = BitVec.ofNat 32 (d.toNat / 2 ^ 32) := by
  apply BitVec.eq_of_toNat_eq
  simp [hiHalf, Nat.shiftRight_eq_div_pow]

theorem setLo_eq (d : DWord) (v : Word) : setLo d v = withLow d v := by
  apply BitVec.eq_of_toNat_eq
  simp only [setLo, withLow, hiHalf, BitVec.toNat_append, BitVec.extractLsb'_toNat, BitVec.toNat_ofNat,
    Nat.shiftRight_eq_div_pow]
  have hv := v.isLt
  have hd := d.isLt
  rw [← Nat.shiftLeft_add_eq_or_of_lt hv]
  simp [Nat.shiftLeft_eq]
  omega

theorem setHi_eq (d : DWord) (v : Word) : setHi d v = withHigh d v := by
  apply BitVec.eq_of_toNat_eq
  simp only [setHi, withHigh, loHalf, BitVec.toNat_append, BitVec.extractLsb'_toNat, BitVec.toNat_ofNat,
    Nat.shiftRight_eq_div_pow]
  have hv := v.isLt
  have hd := d.isLt
  rw [← Nat.shiftLeft_add_eq_or_of_lt (Nat.mod_lt _ (by decide))]
  simp [Nat.shiftLeft_eq]
  omega

/-! ### Reads -/

/-- Whose turn it is does not show in a read. -/
@[simp] theorem readValue_turns (s : State) (ts : List Turn) (d : Word) (off : Nat) (w : Width) :
    readValue { s with turns := ts } d off w = readValue s d off w := by
  have hr : ∀ r, readReg { s with turns := ts } r = readReg s r := by intro r; cases r <;> rfl
  have hb : ∀ r, readRegBusy { s with turns := ts } d r = readRegBusy s d r := by
    intro r; cases r <;> rfl
  have hw : ∀ n, readWindow { s with turns := ts } d off n = readWindow s d off n := by
    intro n
    induction n with
    | zero => rfl
    | succ n ih => unfold readWindow; rw [ih]; rfl
  unfold readValue
  rw [hw]
  split
  · split
    · rw [hr, hb]
    · rfl
  · rfl

/-- A window read of up to four bytes: byte `j` of the value is the byte at offset `j`
(20_memory.md R54). -/
theorem readWindow_byte (s : State) (d : Word) (off n j : Nat) (hn : n ≤ 4) (hj : j < n) :
    (BitVec.ofNat 32 (readWindow s d off n)).extractLsb' (8 * j) 8 =
      windowByte s (d.extractLsb' (8 * j) 8) (off + j) := by
  have lt : ∀ n, readWindow s d off n < 2 ^ (8 * n) := by
    intro n
    induction n with
    | zero => simp [readWindow]
    | succ n ih =>
      unfold readWindow
      have hb := (windowByte s (d.extractLsb' (8 * n) 8) (off + n)).isLt
      have : 2 ^ (8 * (n + 1)) = 256 * 2 ^ (8 * n) := by rw [Nat.mul_add, Nat.pow_add]; omega
      rw [this]
      have : (windowByte s (d.extractLsb' (8 * n) 8) (off + n)).toNat * 2 ^ (8 * n) ≤ 255 * 2 ^ (8 * n) :=
        Nat.mul_le_mul_right _ (by omega)
      omega
  have byte : ∀ n, j < n → readWindow s d off n / 2 ^ (8 * j) % 256 =
      (windowByte s (d.extractLsb' (8 * j) 8) (off + j)).toNat := by
    intro n
    induction n with
    | zero => intro h; omega
    | succ n ih =>
      intro h
      unfold readWindow
      rcases Nat.lt_or_ge j n with hjn | hjn
      · have hsplit : 2 ^ (8 * n) = 2 ^ (8 * j) * (256 * 2 ^ (8 * (n - j - 1))) := by
          have : 8 * n = 8 * j + (8 + 8 * (n - j - 1)) := by omega
          rw [this, Nat.pow_add, Nat.pow_add]
        have : (windowByte s (d.extractLsb' (8 * n) 8) (off + n)).toNat * 2 ^ (8 * n) =
            2 ^ (8 * j) * (256 * (2 ^ (8 * (n - j - 1)) *
              (windowByte s (d.extractLsb' (8 * n) 8) (off + n)).toNat)) := by
          rw [hsplit]; ac_rfl
        rw [this, Nat.add_mul_div_left _ _ (Nat.two_pow_pos _), Nat.add_mul_mod_self_left]
        exact ih hjn
      · have hj : j = n := by omega
        subst hj
        rw [Nat.add_mul_div_right _ _ (Nat.two_pow_pos _), Nat.div_eq_of_lt (lt j), Nat.zero_add]
        have := (windowByte s (d.extractLsb' (8 * j) 8) (off + j)).isLt
        omega
  have hlt : readWindow s d off n < 2 ^ 32 :=
    Nat.lt_of_lt_of_le (lt n) (Nat.pow_le_pow_right (by decide) (by omega))
  apply BitVec.eq_of_toNat_eq
  rw [BitVec.extractLsb'_toNat, BitVec.toNat_ofNat, Nat.mod_eq_of_lt hlt, Nat.shiftRight_eq_div_pow]
  exact byte n hj

end Sys2Proof.Machine
end

