-- ==== Sys2Proof/Laws/Collaborators.lean ====
section
/-! SUPPORT. The collaborators' laws: agreement is symmetric, a lawful answer keeps a lawful transcript lawful,
and what each law gives for the requests of two commands. -/

namespace Sys2Proof.Machine

/-! ### Flipped bits -/

theorem bitsApart_comm (a b : Bytes) : bitsApart a b = bitsApart b a := by
  unfold bitsApart
  rw [List.zipWith_comm]
  simp only [BitVec.xor_comm]

theorem oneBitApart_comm (a b : Bytes) : oneBitApart a b = oneBitApart b a := by
  simp only [oneBitApart, bitsApart_comm a b, Bool.beq_comm (a := a.length)]

theorem bitsApart_self (a : Bytes) : bitsApart a a = 0 := by
  induction a with
  | nil => rfl
  | cons x xs ih =>
    simp only [bitsApart, List.zipWith_cons_cons, List.sum_cons] at *
    rw [ih]
    simp

@[simp] theorem oneBitApart_self (a : Bytes) : oneBitApart a a = false := by
  simp [oneBitApart, bitsApart_self]

/-! ### Agreement -/

theorem blockLaw_comm (x y : Answered) : blockLaw x y = blockLaw y x := by
  unfold blockLaw
  rcases x.blockPair with _ | ⟨k, p, c⟩ <;> rcases y.blockPair with _ | ⟨k', p', c'⟩ <;> try rfl
  simp only [bne, Bool.beq_comm (a := k), Bool.beq_comm (a := p), Bool.beq_comm (a := c)]

theorem sealLaw_comm (x y : Answered) : sealLaw x y = sealLaw y x := by
  unfold sealLaw
  rcases x.sealing with _ | ⟨u, p, c⟩ <;> rcases y.sealing with _ | ⟨u', p', c'⟩ <;> try rfl
  simp only [Bool.beq_comm (a := u), Bool.beq_comm (a := p), Bool.beq_comm (a := c),
    oneBitApart_comm c]

theorem agrees_comm (x y : Answered) : x.agrees y = y.agrees x := by
  unfold Answered.agrees
  rw [blockLaw_comm, sealLaw_comm, Bool.and_right_comm]

/-- An answer is at odds with itself in nothing. -/
@[simp] theorem agrees_self (x : Answered) : x.agrees x = true := by
  obtain ⟨q, a⟩ := x
  cases q <;> cases a <;>
    simp [Answered.agrees, blockLaw, sealLaw, openLaw, Answered.blockPair, Answered.sealing, Answered.opening]

theorem lawfulAnswer_iff (l : List Answered) (q : Request) (a : Answer) :
    lawfulAnswer l q a = true ↔ q.fits a = true ∧ ∀ x ∈ l, x.agrees ⟨q, a⟩ = true := by
  simp [lawfulAnswer]

theorem transcriptLawful_nil : transcriptLawful [] := by simp [transcriptLawful]

/-- A lawful answer keeps the transcript lawful. -/
theorem transcriptLawful_append {l : List Answered} {q : Request} {a : Answer} (hl : transcriptLawful l)
    (h : lawfulAnswer l q a = true) : transcriptLawful (l ++ [⟨q, a⟩]) := by
  obtain ⟨hf, ha⟩ := (lawfulAnswer_iff l q a).mp h
  intro x hx
  rcases List.mem_append.mp hx with hx | hx
  · refine ⟨(hl x hx).1, fun y hy => ?_⟩
    rcases List.mem_append.mp hy with hy | hy
    · exact (hl x hx).2 y hy
    · rw [List.mem_singleton.mp hy]; exact ha x hx
  · rw [List.mem_singleton.mp hx]
    refine ⟨hf, fun y hy => ?_⟩
    rcases List.mem_append.mp hy with hy | hy
    · rw [agrees_comm]; exact ha y hy
    · rw [List.mem_singleton.mp hy]; exact agrees_self _

/-! ### What the laws give -/

/-- `E_K` is a function (42_modes.md R209). -/
theorem encrypt_encrypt {k x y y' : Bytes}
    (h : Answered.agrees ⟨.encryptBlock k x, .bytes y⟩ ⟨.encryptBlock k x, .bytes y'⟩ = true) : y = y' := by
  simpa [Answered.agrees, blockLaw, sealLaw, openLaw, Answered.blockPair, Answered.sealing,
    Answered.opening] using h

/-- `D_K` gives back what `E_K` encrypted (42_modes.md R209). -/
theorem encrypt_decrypt {k x y x' : Bytes}
    (h : Answered.agrees ⟨.encryptBlock k x, .bytes y⟩ ⟨.decryptBlock k y, .bytes x'⟩ = true) : x = x' := by
  simpa [Answered.agrees, blockLaw, sealLaw, openLaw, Answered.blockPair, Answered.sealing,
    Answered.opening] using h

/-- Open gives back what Seal sealed, and does not fail on it (42_modes.md R208, law 2). -/
theorem seal_open {t : Nat} {k n p a c : Bytes} {r : Answer}
    (h : Answered.agrees ⟨.sealData t k n p a, .bytes c⟩ ⟨.openData t k n c a, r⟩ = true)
    (hr : r ≠ .ok) : r = .bytes p := by
  cases r <;> simp_all [Answered.agrees, blockLaw, sealLaw, openLaw, Answered.blockPair, Answered.sealing,
    Answered.opening]

/-- Open fails on what Seal sealed with a bit flipped, in any context (42_modes.md R208, law 4). -/
theorem seal_open_flipped {t t' : Nat} {k k' n n' p a a' c c' : Bytes} {r : Answer}
    (h : Answered.agrees ⟨.sealData t k n p a, .bytes c⟩ ⟨.openData t' k' n' c' a', r⟩ = true)
    (hc : oneBitApart c c' = true) (hr : r ≠ .ok) : r = .fail := by
  cases r <;> simp_all [Answered.agrees, blockLaw, sealLaw, openLaw, Answered.blockPair, Answered.sealing,
    Answered.opening]

/-- Open fails on what Seal sealed in another context (42_modes.md R201, R205). -/
theorem seal_open_elsewhere {t t' : Nat} {k k' n n' p a a' c : Bytes} {r : Answer}
    (h : Answered.agrees ⟨.sealData t k n p a, .bytes c⟩ ⟨.openData t' k' n' c a', r⟩ = true)
    (hu : SealContext.mk t k n a ≠ SealContext.mk t' k' n' a') (hr : r ≠ .ok) : r = .fail := by
  cases r <;> simp_all [Answered.agrees, blockLaw, sealLaw, openLaw, Answered.blockPair, Answered.sealing,
    Answered.opening]

/-- Seal gives the same bytes for the same arguments only (42_modes.md R208, laws 1 and 2; R201, R205). -/
theorem seal_seal {t t' : Nat} {k k' n n' p p' a a' c : Bytes}
    (h : Answered.agrees ⟨.sealData t k n p a, .bytes c⟩ ⟨.sealData t' k' n' p' a', .bytes c⟩ = true) :
    SealContext.mk t k n a = SealContext.mk t' k' n' a' ∧ p = p' := by
  simpa [Answered.agrees, blockLaw, sealLaw, openLaw, Answered.blockPair, Answered.sealing,
    Answered.opening] using h

end Sys2Proof.Machine
end

