-- ==== Sys2Proof/Laws/Decode.lean ====
section
/-! SUPPORT. The fields of a word and the fields of a command: small lemmas for decoding and encoding. -/

namespace Sys2Proof

@[simp] theorem command_instr (c : Command) : c.instr.command = c := by
  cases c with
  | pad k => cases k <;> rfl
  | unpad k => cases k <;> rfl
  | val p => cases p <;> rfl
  | enc m k => cases m <;> (cases k with | none => rfl | some k => cases k <;> rfl)
  | dec m k => cases m <;> (cases k with | none => rfl | some k => cases k <;> rfl)
  | encGcm v => cases v <;> rfl
  | decGcm v => cases v <;> rfl

@[simp] theorem instr_command (i : Instr) : i.command.instr = i := by
  cases i <;> rfl

/-- A command is determined by its fields' selection. -/
theorem command_injective {i j : Instr} (h : i.command = j.command) : i = j := by
  rw [← instr_command i, h, instr_command]

/-- Taking a word apart and putting it together again (30_encoding.md R70: the fields cover all 32 bits). -/
@[simp] theorem toWord_ofWord (w : Word) : (Fields.ofWord w).toWord = w := by
  apply BitVec.eq_of_getLsbD_eq
  intro i hi
  simp only [Fields.toWord, Fields.ofWord, BitVec.getLsbD_append, BitVec.getLsbD_extractLsb']
  repeat' split
  all_goals
    rw [decide_eq_true (by omega), Bool.true_and]
    congr 1
    omega

/-- The fields of the word that holds them (30_encoding.md R70: the fields do not overlap). -/
@[simp] theorem ofWord_toWord (f : Fields) : Fields.ofWord f.toWord = f := by
  obtain ⟨op, sch, mode, gvar, resLo, vsel, resHi⟩ := f
  simp only [Fields.ofWord, Fields.toWord, Fields.mk.injEq]
  refine ⟨?_, ?_, ?_, ?_, ?_, ?_, ?_⟩ <;>
  · apply BitVec.eq_of_getLsbD_eq
    intro i hi
    simp only [BitVec.getLsbD_extractLsb', BitVec.getLsbD_append, hi, decide_true, Bool.true_and]
    repeat' split
    all_goals first
      | omega
      | (congr 1; omega)

/-- Words with the same fields are the same word. -/
theorem ofWord_injective {v w : Word} (h : Fields.ofWord v = Fields.ofWord w) : v = w := by
  rw [← toWord_ofWord v, h, toWord_ofWord]

/-- The decoder reads the fields a command selects. -/
theorem decode_eq (w : Word) :
    decode w = match (Fields.ofWord w).command with | .ok c => .ok c.instr | .error e => .error e := rfl

end Sys2Proof
end

