-- ==== Sys2Proof/Laws/Congr.lean ====
section
/-! SUPPORT. What a command's pseudocode depends on: its operands, the answers it has had, and BUF_CAP. -/

namespace Sys2Proof.Machine

/-! ### The requests depend on the answers alone -/

theorem ask_congr {s s' : State} (h : s.answers = s'.answers) (q : Request) : s.ask q = s'.ask q := by
  unfold State.ask
  rw [h]

theorem askInit_congr {s s' : State} (h : s.answers = s'.answers) (q : Request) :
    askInit s q = askInit s' q := by
  unfold askInit
  rw [ask_congr h]

theorem askBytes_congr {s s' : State} (h : s.answers = s'.answers) (q : Request) (c : Code) (n : Nat) :
    askBytes s q c n = askBytes s' q c n := by
  unfold askBytes
  rw [ask_congr h]

theorem askData_congr {s s' : State} (h : s.answers = s'.answers) (q : Request) :
    askData s q = askData s' q := by
  unfold askData
  rw [ask_congr h]

theorem askAll_congr {s s' : State} (h : s.answers = s'.answers) (qs : List Request) :
    askAll s qs = askAll s' qs := by
  induction qs with
  | nil => rfl
  | cons q qs ih =>
    unfold askAll
    rw [ask_congr h, ih]

theorem trailer_congr {s s' : State} (h : s.answers = s'.answers) (k : Scheme) (n : Nat) :
    trailer s k n = trailer s' k n := by
  cases k <;> simp only [trailer]
  rw [askBytes_congr h]

theorem cipherFn_congr {s s' : State} (h : s.answers = s'.answers) (q : Bytes → Request) :
    s.cipherFn q = s'.cipherFn q := by
  funext x
  unfold State.cipherFn
  rw [ask_congr h]

theorem runBlocks_congr {s s' : State} (h : s.answers = s'.answers) (q : Bytes → Request)
    (calls : List BlockCall) : runBlocks s q calls = runBlocks s' q calls := by
  unfold runBlocks
  rw [askAll_congr h]

/-! ### The commands -/

/-- Two states that agree on a command's operands, the answers and BUF_CAP run it alike
(60_exceptions.md R246). -/
theorem body_congr {c : Command} {s s' : State} (h : ∀ o ∈ operandsRead c.instr, o.same s s')
    (hc : s.params.bufCap = s'.params.bufCap) (ha : s.answers = s'.answers) :
    Command.body c s = Command.body c s' := by
  simp only [operandsRead, command_instr] at h
  cases c with
  | pad k =>
    cases k <;> simp [Operand.same] at h <;> simp [Command.body, padCmd, padB, trailer_congr ha, hc, h]
  | unpad k =>
    cases k <;> simp [Operand.same] at h <;> simp [Command.body, unpadCmd, padB, hc, h]
  | val p =>
    cases p <;> simp [Operand.same] at h <;> simp [Command.body, predCheck, h]
  | enc m k =>
    cases m <;> simp [Operand.same] at h
    all_goals simp [Command.body, encBlk, modeIvCheck, modeLengths, encInput, askInit_congr ha,
      runBlocks_congr ha, cipherFn_congr ha, trailer_congr ha, hc, h]
    all_goals cases k <;> simp [encCalls]
  | dec m k =>
    cases m <;> simp [Operand.same] at h <;>
    simp [Command.body, decBlk, modeIvCheck, modeLengths, askInit_congr ha, runBlocks_congr ha,
      cipherFn_congr ha, hc, h, decCalls]
  | encGcm v =>
    cases v <;> simp [Operand.same] at h <;>
    simp [Command.body, gcmEnc, State.tagSize, askInit_congr ha, askData_congr ha, hc, h]
  | decGcm v =>
    cases v <;> simp [Operand.same] at h <;>
    simp [Command.body, gcmDec, State.tagSize, askInit_congr ha, askBytes_congr ha, hc, h]

end Sys2Proof.Machine
end

