-- ==== Sys2Proof/Laws/Memory.lean ====
section
/-! SUPPORT. The laws of byte storage: what a read after a write returns, and that every write keeps the
canonical form. -/

namespace Sys2Proof.Machine

@[simp] theorem Memory.read_nil (a : Nat) : Memory.read [] a = none := rfl

/-- A read after a write of one byte. -/
theorem Memory.read_write (m : Memory) (a a' : Nat) (b : Byte) :
    Memory.read (Memory.write m a b) a' = if a' = a then some b else Memory.read m a' := by
  induction m with
  | nil => by_cases h : a' = a <;> simp [Memory.write, Memory.read, h, Ne.symm]
  | cons c m ih =>
    obtain ⟨k, v⟩ := c
    by_cases h1 : a < k
    · by_cases h : a' = a
      · simp [Memory.write, Memory.read, h1, h]
      · simp [Memory.write, Memory.read, h1, h, Ne.symm h]
    · by_cases h2 : a = k
      · subst h2
        by_cases h : a' = a
        · simp [Memory.write, Memory.read, h]
        · simp [Memory.write, Memory.read, h, Ne.symm h]
      · by_cases h : a' = a
        · subst h
          simp [Memory.write, Memory.read, h1, h2, Ne.symm h2, ih]
        · simp [Memory.write, Memory.read, h1, h2, ih, h]

/-- A read after a write of a byte sequence: inside it the sequence's byte, outside what was there. -/
theorem Memory.read_writeBytes (bs : Bytes) (m : Memory) (a a' : Nat) :
    Memory.read (Memory.writeBytes m a bs) a' =
      if a ≤ a' ∧ a' < a + bs.length then bs[a' - a]? else Memory.read m a' := by
  induction bs generalizing m a with
  | nil => simp [Memory.writeBytes]
  | cons b bs ih =>
    rw [Memory.writeBytes, ih, Memory.read_write]
    by_cases h0 : a' = a
    · subst h0; simp
    · by_cases h1 : a + 1 ≤ a' ∧ a' < a + 1 + bs.length
      · have h2 : a ≤ a' ∧ a' < a + (b :: bs).length := by simp; omega
        have h3 : a' - a = (a' - (a + 1)) + 1 := by omega
        simp only [h1, h2, and_self, if_true, h3, List.getElem?_cons_succ]
      · have h2 : ¬(a ≤ a' ∧ a' < a + (b :: bs).length) := by simp; omega
        simp only [h1, h2, if_false, h0]

/-- A write outside the bytes leaves them alone. -/
theorem Memory.read_writeBytes_of_outside (bs : Bytes) (m : Memory) (a a' : Nat)
    (h : ¬(a ≤ a' ∧ a' < a + bs.length)) :
    Memory.read (Memory.writeBytes m a bs) a' = Memory.read m a' := by
  rw [Memory.read_writeBytes, if_neg h]

/-- The byte written inside the sequence. -/
theorem Memory.read_writeBytes_of_inside (bs : Bytes) (m : Memory) (a k : Nat) (h : k < bs.length) :
    Memory.read (Memory.writeBytes m a bs) (a + k) = some bs[k] := by
  rw [Memory.read_writeBytes, if_pos ⟨by omega, by omega⟩]
  simp [h]

/-- Rising offsets, as a pairwise statement. -/
theorem Memory.wf_iff_pairwise (m : Memory) : m.wf = true ↔ m.Pairwise (fun c d => c.1 < d.1) := by
  induction m with
  | nil => simp [Memory.wf]
  | cons c m ih =>
    cases m with
    | nil => simp [Memory.wf]
    | cons d m =>
      rw [Memory.wf, Bool.and_eq_true, decide_eq_true_iff, ih, List.pairwise_cons (a := c)]
      constructor
      · rintro ⟨h, hp⟩
        refine ⟨fun x hx => ?_, hp⟩
        rcases List.mem_cons.1 hx with rfl | hx
        · exact h
        · exact Nat.lt_trans h ((List.pairwise_cons.1 hp).1 x hx)
      · rintro ⟨h, hp⟩
        exact ⟨h d (by simp), hp⟩

/-- The entries after a write of one byte are the new one and old ones. -/
theorem Memory.mem_write (m : Memory) (a : Nat) (b : Byte) (c : Host.Cell)
    (h : c ∈ Memory.write m a b) : c = (a, b) ∨ c ∈ m := by
  induction m with
  | nil => simpa [Memory.write] using h
  | cons d m ih =>
    obtain ⟨k, v⟩ := d
    rw [Memory.write] at h
    split at h
    · simpa using h
    · split at h
      · rcases List.mem_cons.1 h with h | h
        · exact .inl h
        · exact .inr (List.mem_cons_of_mem _ h)
      · rcases List.mem_cons.1 h with h | h
        · exact .inr (by simp [h])
        · rcases ih h with h | h
          · exact .inl h
          · exact .inr (List.mem_cons_of_mem _ h)

/-- A write of one byte keeps the canonical form. -/
theorem Memory.wf_write (m : Memory) (a : Nat) (b : Byte) (h : m.wf = true) :
    (Memory.write m a b).wf = true := by
  rw [Memory.wf_iff_pairwise] at *
  induction m with
  | nil => simp [Memory.write]
  | cons d m ih =>
    obtain ⟨k, v⟩ := d
    have ⟨hk, hm⟩ := List.pairwise_cons.1 h
    rw [Memory.write]
    split
    · rename_i hlt
      refine List.pairwise_cons.2 ⟨fun x hx => ?_, h⟩
      rcases List.mem_cons.1 hx with rfl | hx
      · exact hlt
      · exact Nat.lt_trans hlt (hk x hx)
    · split
      · rename_i heq
        subst heq
        exact List.pairwise_cons.2 ⟨hk, hm⟩
      · rename_i hlt hne
        refine List.pairwise_cons.2 ⟨fun x hx => ?_, ih hm⟩
        rcases Memory.mem_write m a b x hx with rfl | hx
        · show k < a
          omega
        · exact hk x hx

/-- A write of a byte sequence keeps the canonical form. -/
theorem Memory.wf_writeBytes (bs : Bytes) (m : Memory) (a : Nat) (h : m.wf = true) :
    (Memory.writeBytes m a bs).wf = true := by
  induction bs generalizing m a with
  | nil => exact h
  | cons b bs ih => exact ih _ _ (Memory.wf_write m a b h)

/-- The entries after a write of a byte sequence are old ones and ones inside it. -/
theorem Memory.mem_writeBytes (bs : Bytes) (m : Memory) (a : Nat) (c : Host.Cell)
    (h : c ∈ Memory.writeBytes m a bs) : (a ≤ c.1 ∧ c.1 < a + bs.length) ∨ c ∈ m := by
  induction bs generalizing m a with
  | nil => exact .inr h
  | cons b bs ih =>
    rcases ih _ _ h with h | h
    · exact .inl (by simp; omega)
    · rcases Memory.mem_write m a b c h with rfl | h
      · exact .inl (by simp)
      · exact .inr h

/-- Reset memory has the canonical form. -/
theorem reset_mem_wf : State.reset.mem.wf = true := rfl

end Sys2Proof.Machine
end

