-- ==== Sys2Proof/Laws/Outcome.lean ====
section
/-! SUPPORT. What the end of a command does to the bytes of the buffers (60_exceptions.md R242, R243). -/

namespace Sys2Proof.Machine

/-- A success stores its output at the start of OUTBUF. -/
theorem byteAt_finish_of_inside (s : State) (out : Bytes) (k : Nat) (hk : k < out.length) :
    (finish s out).byteAt (Buf.base .output + k) = out[k] := by
  simp [State.byteAt, Memory.read_writeBytes_of_inside _ _ _ _ hk]

/-- A success stores nowhere else. -/
theorem byteAt_finish_of_outside (s : State) (out : Bytes) (a : Nat)
    (h : ¬ (Buf.base .output ≤ a ∧ a < Buf.base .output + out.length)) :
    (finish s out).byteAt a = s.byteAt a := by
  simp [State.byteAt, Memory.read_writeBytes_of_outside _ _ _ _ h]

/-- What OUTBUF reads as after a success (10_state.md R37). -/
theorem outByte_finish (s : State) (out : Bytes) (k : Nat) (h : out.length < 2 ^ 64) :
    (finish s out).outByte k = out.getD k 0 := by
  have e : (finish s out).outLen.toNat = out.length := by simp; omega
  unfold State.outByte
  rw [e]
  by_cases hk : k < out.length
  · rw [if_pos hk, byteAt_finish_of_inside _ _ _ hk]
    simp [hk]
  · rw [if_neg hk]
    simp [Nat.le_of_not_lt hk]

/-- The output of a success, as the host reads it. -/
theorem outBytes_finish (s : State) (out : Bytes) (h : out.length < 2 ^ 64) :
    (finish s out).outBytes = out := by
  have e : (finish s out).outLen.toNat = out.length := by simp; omega
  unfold State.outBytes
  rw [e]
  apply List.ext_getElem (by simp)
  intro k h1 h2
  simp [outByte_finish s out k h, h2]

@[simp] theorem byteAt_raiseErr (s : State) (code : Code) (arg a : Nat) :
    (raiseErr s code arg).byteAt a = s.byteAt a := rfl

@[simp] theorem outByte_raiseErr (s : State) (code : Code) (arg k : Nat) :
    (raiseErr s code arg).outByte k = 0 := rfl

/-- A wait leaves every byte as it was. -/
theorem byteAt_waitFor (s : State) (q : Request) (a : Nat) : (waitFor s q).byteAt a = s.byteAt a := by
  obtain ⟨o, n, h, -⟩ := waitFor_eq s q
  rw [h]
  rfl

/-- A wait leaves Busy as it was. -/
@[simp] theorem waitFor_busy (s : State) (q : Request) : (waitFor s q).busy = s.busy := by
  obtain ⟨o, n, h, -⟩ := waitFor_eq s q
  rw [h]

end Sys2Proof.Machine
end

