-- ==== Sys2Proof/Laws/PerInstr.lean ====
section
/-! SUPPORT. Facts about the instruction as syntax, one lemma per constructor. Family Encoding: the word of a
command is legal and decodes to it (30_encoding.md R77, R80, R81). -/

namespace Sys2Proof.Laws.Encoding

/-- The command's fields are legal, and its word decodes to it. -/
def Statement (i : Instr) : Prop := i.wf = true ∧ decode (encode i) = .ok i

theorem padZero : Statement .padZero := by unfold Statement; decide
theorem padBit : Statement .padBit := by unfold Statement; decide
theorem padPkcs7 : Statement .padPkcs7 := by unfold Statement; decide
theorem padPkcs5 : Statement .padPkcs5 := by unfold Statement; decide
theorem padX923 : Statement .padX923 := by unfold Statement; decide
theorem padIso7816 : Statement .padIso7816 := by unfold Statement; decide
theorem padIso10126 : Statement .padIso10126 := by unfold Statement; decide
theorem unpadZero : Statement .unpadZero := by unfold Statement; decide
theorem unpadBit : Statement .unpadBit := by unfold Statement; decide
theorem unpadPkcs7 : Statement .unpadPkcs7 := by unfold Statement; decide
theorem unpadPkcs5 : Statement .unpadPkcs5 := by unfold Statement; decide
theorem unpadX923 : Statement .unpadX923 := by unfold Statement; decide
theorem unpadIso7816 : Statement .unpadIso7816 := by unfold Statement; decide
theorem unpadIso10126 : Statement .unpadIso10126 := by unfold Statement; decide
theorem valKeysize : Statement .valKeysize := by unfold Statement; decide
theorem valBlocksize : Statement .valBlocksize := by unfold Statement; decide
theorem valIvsize : Statement .valIvsize := by unfold Statement; decide
theorem valIveq : Statement .valIveq := by unfold Statement; decide
theorem valCiphertext : Statement .valCiphertext := by unfold Statement; decide
theorem valStdnonce : Statement .valStdnonce := by unfold Statement; decide
theorem valNoncesize : Statement .valNoncesize := by unfold Statement; decide
theorem valTagsize : Statement .valTagsize := by unfold Statement; decide
theorem valDatasize : Statement .valDatasize := by unfold Statement; decide
theorem valEmpty : Statement .valEmpty := by unfold Statement; decide
theorem encEcbNone : Statement .encEcbNone := by unfold Statement; decide
theorem encEcbZero : Statement .encEcbZero := by unfold Statement; decide
theorem encEcbBit : Statement .encEcbBit := by unfold Statement; decide
theorem encEcbPkcs7 : Statement .encEcbPkcs7 := by unfold Statement; decide
theorem encEcbPkcs5 : Statement .encEcbPkcs5 := by unfold Statement; decide
theorem encEcbX923 : Statement .encEcbX923 := by unfold Statement; decide
theorem encEcbIso7816 : Statement .encEcbIso7816 := by unfold Statement; decide
theorem encEcbIso10126 : Statement .encEcbIso10126 := by unfold Statement; decide
theorem decEcbNone : Statement .decEcbNone := by unfold Statement; decide
theorem decEcbZero : Statement .decEcbZero := by unfold Statement; decide
theorem decEcbBit : Statement .decEcbBit := by unfold Statement; decide
theorem decEcbPkcs7 : Statement .decEcbPkcs7 := by unfold Statement; decide
theorem decEcbPkcs5 : Statement .decEcbPkcs5 := by unfold Statement; decide
theorem decEcbX923 : Statement .decEcbX923 := by unfold Statement; decide
theorem decEcbIso7816 : Statement .decEcbIso7816 := by unfold Statement; decide
theorem decEcbIso10126 : Statement .decEcbIso10126 := by unfold Statement; decide
theorem encCbcNone : Statement .encCbcNone := by unfold Statement; decide
theorem encCbcZero : Statement .encCbcZero := by unfold Statement; decide
theorem encCbcBit : Statement .encCbcBit := by unfold Statement; decide
theorem encCbcPkcs7 : Statement .encCbcPkcs7 := by unfold Statement; decide
theorem encCbcPkcs5 : Statement .encCbcPkcs5 := by unfold Statement; decide
theorem encCbcX923 : Statement .encCbcX923 := by unfold Statement; decide
theorem encCbcIso7816 : Statement .encCbcIso7816 := by unfold Statement; decide
theorem encCbcIso10126 : Statement .encCbcIso10126 := by unfold Statement; decide
theorem decCbcNone : Statement .decCbcNone := by unfold Statement; decide
theorem decCbcZero : Statement .decCbcZero := by unfold Statement; decide
theorem decCbcBit : Statement .decCbcBit := by unfold Statement; decide
theorem decCbcPkcs7 : Statement .decCbcPkcs7 := by unfold Statement; decide
theorem decCbcPkcs5 : Statement .decCbcPkcs5 := by unfold Statement; decide
theorem decCbcX923 : Statement .decCbcX923 := by unfold Statement; decide
theorem decCbcIso7816 : Statement .decCbcIso7816 := by unfold Statement; decide
theorem decCbcIso10126 : Statement .decCbcIso10126 := by unfold Statement; decide
theorem encCfbNone : Statement .encCfbNone := by unfold Statement; decide
theorem encCfbZero : Statement .encCfbZero := by unfold Statement; decide
theorem encCfbBit : Statement .encCfbBit := by unfold Statement; decide
theorem encCfbPkcs7 : Statement .encCfbPkcs7 := by unfold Statement; decide
theorem encCfbPkcs5 : Statement .encCfbPkcs5 := by unfold Statement; decide
theorem encCfbX923 : Statement .encCfbX923 := by unfold Statement; decide
theorem encCfbIso7816 : Statement .encCfbIso7816 := by unfold Statement; decide
theorem encCfbIso10126 : Statement .encCfbIso10126 := by unfold Statement; decide
theorem decCfbNone : Statement .decCfbNone := by unfold Statement; decide
theorem decCfbZero : Statement .decCfbZero := by unfold Statement; decide
theorem decCfbBit : Statement .decCfbBit := by unfold Statement; decide
theorem decCfbPkcs7 : Statement .decCfbPkcs7 := by unfold Statement; decide
theorem decCfbPkcs5 : Statement .decCfbPkcs5 := by unfold Statement; decide
theorem decCfbX923 : Statement .decCfbX923 := by unfold Statement; decide
theorem decCfbIso7816 : Statement .decCfbIso7816 := by unfold Statement; decide
theorem decCfbIso10126 : Statement .decCfbIso10126 := by unfold Statement; decide
theorem encOfbNone : Statement .encOfbNone := by unfold Statement; decide
theorem encOfbZero : Statement .encOfbZero := by unfold Statement; decide
theorem encOfbBit : Statement .encOfbBit := by unfold Statement; decide
theorem encOfbPkcs7 : Statement .encOfbPkcs7 := by unfold Statement; decide
theorem encOfbPkcs5 : Statement .encOfbPkcs5 := by unfold Statement; decide
theorem encOfbX923 : Statement .encOfbX923 := by unfold Statement; decide
theorem encOfbIso7816 : Statement .encOfbIso7816 := by unfold Statement; decide
theorem encOfbIso10126 : Statement .encOfbIso10126 := by unfold Statement; decide
theorem decOfbNone : Statement .decOfbNone := by unfold Statement; decide
theorem decOfbZero : Statement .decOfbZero := by unfold Statement; decide
theorem decOfbBit : Statement .decOfbBit := by unfold Statement; decide
theorem decOfbPkcs7 : Statement .decOfbPkcs7 := by unfold Statement; decide
theorem decOfbPkcs5 : Statement .decOfbPkcs5 := by unfold Statement; decide
theorem decOfbX923 : Statement .decOfbX923 := by unfold Statement; decide
theorem decOfbIso7816 : Statement .decOfbIso7816 := by unfold Statement; decide
theorem decOfbIso10126 : Statement .decOfbIso10126 := by unfold Statement; decide
theorem encCtrNone : Statement .encCtrNone := by unfold Statement; decide
theorem encCtrZero : Statement .encCtrZero := by unfold Statement; decide
theorem encCtrBit : Statement .encCtrBit := by unfold Statement; decide
theorem encCtrPkcs7 : Statement .encCtrPkcs7 := by unfold Statement; decide
theorem encCtrPkcs5 : Statement .encCtrPkcs5 := by unfold Statement; decide
theorem encCtrX923 : Statement .encCtrX923 := by unfold Statement; decide
theorem encCtrIso7816 : Statement .encCtrIso7816 := by unfold Statement; decide
theorem encCtrIso10126 : Statement .encCtrIso10126 := by unfold Statement; decide
theorem decCtrNone : Statement .decCtrNone := by unfold Statement; decide
theorem decCtrZero : Statement .decCtrZero := by unfold Statement; decide
theorem decCtrBit : Statement .decCtrBit := by unfold Statement; decide
theorem decCtrPkcs7 : Statement .decCtrPkcs7 := by unfold Statement; decide
theorem decCtrPkcs5 : Statement .decCtrPkcs5 := by unfold Statement; decide
theorem decCtrX923 : Statement .decCtrX923 := by unfold Statement; decide
theorem decCtrIso7816 : Statement .decCtrIso7816 := by unfold Statement; decide
theorem decCtrIso10126 : Statement .decCtrIso10126 := by unfold Statement; decide
theorem encGcmStd : Statement .encGcmStd := by unfold Statement; decide
theorem decGcmStd : Statement .decGcmStd := by unfold Statement; decide
theorem encGcmNonce : Statement .encGcmNonce := by unfold Statement; decide
theorem decGcmNonce : Statement .decGcmNonce := by unfold Statement; decide
theorem encGcmTag : Statement .encGcmTag := by unfold Statement; decide
theorem decGcmTag : Statement .decGcmTag := by unfold Statement; decide

end Sys2Proof.Laws.Encoding
end

