-- ==== Sys2Proof/Laws/Transforms.lean ====
section
/-! SUPPORT. The block transforms depend on the cipher only at the blocks they give it, and ENC and DEC once
their checks pass. -/

namespace Sys2Proof.Machine

/-! ### Two ciphers that agree on the blocks asked give the same transform -/

theorem ecbCalls_congr {f g : Bytes → Bytes} {bs : List Bytes}
    (h : ∀ x ∈ ecbCalls g bs, f x.input = g x.input) : ecbCalls f bs = ecbCalls g bs := by
  induction bs with
  | nil => rfl
  | cons p ps ih =>
    simp only [ecbCalls, List.forall_mem_cons] at *
    rw [ih h.2, h.1]

theorem cbcEncCalls_congr {f g : Bytes → Bytes} {prev : Bytes} {bs : List Bytes}
    (h : ∀ x ∈ cbcEncCalls g prev bs, f x.input = g x.input) :
    cbcEncCalls f prev bs = cbcEncCalls g prev bs := by
  induction bs generalizing prev with
  | nil => rfl
  | cons p ps ih =>
    simp only [cbcEncCalls, List.forall_mem_cons] at *
    rw [h.1, ih h.2]

theorem cbcDecCalls_congr {f g : Bytes → Bytes} {prev : Bytes} {bs : List Bytes}
    (h : ∀ x ∈ cbcDecCalls g prev bs, f x.input = g x.input) :
    cbcDecCalls f prev bs = cbcDecCalls g prev bs := by
  induction bs generalizing prev with
  | nil => rfl
  | cons p ps ih =>
    simp only [cbcDecCalls, List.forall_mem_cons] at *
    rw [h.1, ih h.2]

theorem cfbEncCalls_congr {f g : Bytes → Bytes} {prev : Bytes} {bs : List Bytes}
    (h : ∀ x ∈ cfbEncCalls g prev bs, f x.input = g x.input) :
    cfbEncCalls f prev bs = cfbEncCalls g prev bs := by
  induction bs generalizing prev with
  | nil => rfl
  | cons p ps ih =>
    simp only [cfbEncCalls, List.forall_mem_cons] at *
    rw [h.1, ih h.2]

theorem cfbDecCalls_congr {f g : Bytes → Bytes} {prev : Bytes} {bs : List Bytes}
    (h : ∀ x ∈ cfbDecCalls g prev bs, f x.input = g x.input) :
    cfbDecCalls f prev bs = cfbDecCalls g prev bs := by
  induction bs generalizing prev with
  | nil => rfl
  | cons p ps ih =>
    simp only [cfbDecCalls, List.forall_mem_cons] at *
    rw [h.1, ih h.2]

theorem ofbCalls_congr {f g : Bytes → Bytes} {prev : Bytes} {bs : List Bytes}
    (h : ∀ x ∈ ofbCalls g prev bs, f x.input = g x.input) : ofbCalls f prev bs = ofbCalls g prev bs := by
  induction bs generalizing prev with
  | nil => rfl
  | cons p ps ih =>
    simp only [ofbCalls, List.forall_mem_cons] at *
    rw [h.1, ih h.2]

theorem ctrCalls_congr {f g : Bytes → Bytes} {t : Bytes} {bs : List Bytes}
    (h : ∀ x ∈ ctrCalls g t bs, f x.input = g x.input) : ctrCalls f t bs = ctrCalls g t bs := by
  induction bs generalizing t with
  | nil => rfl
  | cons p ps ih =>
    simp only [ctrCalls, List.forall_mem_cons] at *
    rw [h.1, ih h.2]

theorem encCalls_congr {m : BMode} {f g : Bytes → Bytes} {iv p : Bytes}
    (h : ∀ x ∈ encCalls m g iv p, f x.input = g x.input) : encCalls m f iv p = encCalls m g iv p := by
  cases m
  · exact ecbCalls_congr h
  · exact cbcEncCalls_congr h
  · exact cfbEncCalls_congr h
  · exact ofbCalls_congr h
  · exact ctrCalls_congr h

theorem decCalls_congr {m : BMode} {f g : Bytes → Bytes} {iv c : Bytes}
    (h : ∀ x ∈ decCalls m g iv c, f x.input = g x.input) : decCalls m f iv c = decCalls m g iv c := by
  cases m
  · exact ecbCalls_congr h
  · exact cbcDecCalls_congr h
  · exact cfbDecCalls_congr h
  · exact ofbCalls_congr h
  · exact ctrCalls_congr h

/-! ### ENC and DEC past their checks -/

theorem padB_cipherBlock (k : Scheme) : padB k Config.cipherBlock = modePadSize k := by
  cases k <;> rfl

theorem paddedLen_eq (k : Option Scheme) (n : Nat) : paddedLen k n = n + modeOvh k n := by
  cases k <;> simp [paddedLen, modeOvh, ovh, padB_cipherBlock]

/-- A transform whose block requests have all been answered gives its output. -/
theorem runBlocks_of_answered {s : State} {q : Bytes → Request} {f : Bytes → Bytes} {calls : List BlockCall}
    (h : ∀ x ∈ calls, s.ask (q x.input) = some (.bytes (f x.input))) :
    runBlocks s q calls = .ok (joined calls) := by
  have ha : askAll s (calls.map fun x => q x.input) = .ok () := by
    rw [askAll_eq_ok]
    intro r hr
    obtain ⟨x, hx, rfl⟩ := List.mem_map.1 hr
    exact ⟨_, h x hx⟩
  unfold runBlocks
  rw [ha]
  rfl

/-- ENC past its checks is its transform (42_modes.md R186). -/
theorem encBlk_of_ready {m : BMode} {k : Option Scheme} {s : State} (hp : paramsLegal s.params)
    (hr : modeReady m s)
    (ha : m = .ecb ∨ m = .cbc → (s.inLen.toNat + modeOvh k s.inLen.toNat) % 16 = 0)
    (hc : s.inLen.toNat + modeOvh k s.inLen.toNat ≤ s.params.bufCap) :
    encBlk m k s = encInput k s >>= fun p =>
      runBlocks s (.encryptBlock s.keyBytes)
        (encCalls m (s.cipherFn (.encryptBlock s.keyBytes)) s.ivBytes p) := by
  obtain ⟨⟨h1, h2, h3⟩, h4⟩ := hr
  have h5 : askInit s (.cipherInit s.keyBytes) = .ok () := by simp [askInit, h4]
  have h6 : encAlignCheck m (paddedLen k s.inLen.toNat) = .ok () := by
    rw [paddedLen_eq]
    cases m <;> simp [encAlignCheck, Config.cipherBlock] <;> exact fun h => absurd (ha (by simp)) h
  have h7 : capCheck s.params.bufCap (modeLengths m s ++ [paddedLen k s.inLen.toNat]) = .ok () := by
    rw [capCheck_eq_ok, paddedLen_eq]
    have h0 := hp.1
    have hk : s.keyLen.toNat ≤ s.params.bufCap := by rcases h2 with h | h | h <;> omega
    cases m <;> simp [modeLengths] at h3 ⊢ <;> omega
  unfold encBlk
  rw [(emptyData_eq_ok _).2 h1, (validKeySize_eq_ok _).2 h2, (modeIvCheck_eq_ok _ _).2 h3]
  simp only [h5, h6, h7, cmd_ok_bind]

end Sys2Proof.Machine
end

