-- ==== Sys2Proof/Tests/Slice0.lean ====
section
/-! SUPPORT. The model's own tests. Their expected results are the spec's: the vectors of
spec/95_test_vectors.md, cited by their names there, and words written out from 30_encoding.md. The last
part holds a witness for the hypotheses of each statement. -/

namespace Sys2Proof.Tests

set_option Elab.async false

open Sys2Proof Sys2Proof.Machine

/-! ### Helpers -/

/-- The `n` bytes of a numeral, most significant first: the byte strings of 95_test_vectors.md. -/
def hexB (n v : Nat) : Bytes := (List.range n).map fun i => BitVec.ofNat 8 (v / 256 ^ (n - 1 - i))

/-- A machine of capacity `cap` at bus address 0 on a bus with an error response. -/
def machine (cap : Nat) : State := { State.reset with params := ⟨cap, 0, true⟩ }

/-- Busy, with the operands in their buffers and their lengths in the length registers. -/
def loaded (cap : Nat) (inp key iv aad : Bytes) : State :=
  { machine cap with
    busy   := true
    inLen  := BitVec.ofNat 64 inp.length
    keyLen := BitVec.ofNat 64 key.length
    ivLen  := BitVec.ofNat 64 iv.length
    aadLen := BitVec.ofNat 64 aad.length
    mem    := Memory.writeBytes (Memory.writeBytes (Memory.writeBytes (Memory.writeBytes []
      (Buf.base .input) inp) (Buf.base .key) key) (Buf.base .iv) iv) (Buf.base .aad) aad }

/-- The operands of PAD and UNPAD: BLKSZ and IN. -/
def padIn (b : Nat) (inp : Bytes) : State := { loaded 4096 inp [] [] [] with blksz := BitVec.ofNat 8 b }

/-- The same with a capacity of 64 and a length alone. -/
def padLen (b n : Nat) : State :=
  { machine 64 with busy := true, blksz := BitVec.ofNat 8 b, inLen := BitVec.ofNat 64 n }

/-- The operands of VAL. -/
def valIn (a b : Nat) : State :=
  { machine 4096 with busy := true, arg0 := BitVec.ofNat 64 a, arg1 := BitVec.ofNat 64 b }

/-- The state with the answers its command has had. -/
def answered (s : State) (l : List Answered) : State := { s with answers := l }

/-- The answer of the randomness source to a request for `n` bytes. -/
def rngAns (n : Nat) : Answered := ⟨.rngFill n, .bytes (List.replicate n 0xAA)⟩

/-- How a command ends: ERR, ERRARG and the readable output; `none` where it does not end in this step. -/
def outcome (i : Instr) (s : State) : Option (Code × Nat × Bytes) :=
  match exec i s with
  | .next t => if t.busy then none else some (t.err, t.errarg.toNat, t.outBytes)
  | _ => none

/-- The request a command waits for after this step. -/
def waitsFor (i : Instr) (s : State) : Option Request :=
  match exec i s with
  | .next t => if t.busy then t.pending.map Outstanding.request else none
  | _ => none

/-- The test cipher TC, `E_K` (95_test_vectors.md section 1). -/
def tcE (k x : Bytes) : Bytes := (List.range 16).map fun i => x.getD ((i + 1) % 16) 0 ^^^ k.getD i 0

/-- The test cipher TC, `D_K`. -/
def tcD (k y : Bytes) : Bytes :=
  (List.range 16).map fun i => y.getD ((i + 15) % 16) 0 ^^^ k.getD ((i + 15) % 16) 0

def tcK : Bytes := hexB 16 0x000102030405060708090A0B0C0D0E0F
def tcIv : Bytes := hexB 16 0xF0F1F2F3F4F5F6F7F8F9FAFBFCFDFEFF
def p16 : Bytes := hexB 16 0x00112233445566778899AABBCCDDEEFF
def p32 : Bytes := p16 ++ hexB 16 0xFFEEDDCCBBAA99887766554433221100

/-- The answers of TC: the construction, and the encryption of the blocks listed (each written out from the
transform's rule). -/
def tcEnc (xs : List Bytes) : List Answered :=
  ⟨.cipherInit tcK, .ok⟩ :: xs.map fun x => ⟨.encryptBlock tcK x, .bytes (tcE tcK x)⟩

/-- The answers of TC to decryption requests. -/
def tcDec (xs : List Bytes) : List Answered :=
  ⟨.cipherInit tcK, .ok⟩ :: xs.map fun x => ⟨.decryptBlock tcK x, .bytes (tcD tcK x)⟩

/-- The standard TC operands with input `inp`, and these answers. -/
def tcIn (inp : Bytes) (l : List Answered) : State := answered (loaded 4096 inp tcK tcIv []) l

/-- The standard TC operands with lengths in place of the input and the IV, capacity `cap`, and the cipher
constructed. -/
def modeLen (cap n ivLen : Nat) : State :=
  { answered (loaded cap [] tcK [] []) (tcEnc []) with
    inLen := BitVec.ofNat 64 n
    ivLen := BitVec.ofNat 64 ivLen }

theorem test_tc : tcE tcK p16 = hexB 16 0x112331475163718F91A3B1C7D1E3F10F ∧ tcD tcK (tcE tcK p16) = p16 := by
  decide +kernel

/-! ### WellFormed: each check refuses an ill-formed term (30_encoding.md R76, R77) -/

theorem test_wf_reservedZero : Fields.reservedZero ⟨1, 1, 0, 0, 1, 0, 0⟩ = false ∧
    Fields.reservedZero ⟨1, 1, 0, 0, 0, 0, 0x800⟩ = false := by decide

theorem test_wf_legalPad : Fields.legalPad ⟨1, 0, 0, 0, 0, 0, 0⟩ = false ∧
    Fields.legalPad ⟨1, 8, 0, 0, 0, 0, 0⟩ = false ∧ Fields.legalPad ⟨2, 1, 1, 0, 0, 0, 0⟩ = false ∧
    Fields.legalPad ⟨2, 1, 0, 1, 0, 0, 0⟩ = false ∧ Fields.legalPad ⟨1, 1, 0, 0, 0, 1, 0⟩ = false := by decide

theorem test_wf_legalVal : Fields.legalVal ⟨3, 1, 0, 0, 0, 0, 0⟩ = false ∧
    Fields.legalVal ⟨3, 0, 1, 0, 0, 0, 0⟩ = false ∧ Fields.legalVal ⟨3, 0, 0, 1, 0, 0, 0⟩ = false ∧
    Fields.legalVal ⟨3, 0, 0, 0, 0, 10, 0⟩ = false := by decide

theorem test_wf_legalBlk : Fields.legalBlk ⟨4, 8, 0, 0, 0, 0, 0⟩ = false ∧
    Fields.legalBlk ⟨5, 0, 5, 0, 0, 0, 0⟩ = false ∧ Fields.legalBlk ⟨4, 0, 1, 1, 0, 0, 0⟩ = false ∧
    Fields.legalBlk ⟨4, 0, 0, 0, 0, 1, 0⟩ = false := by decide

theorem test_wf_legalGcm : Fields.legalGcm ⟨4, 1, 5, 0, 0, 0, 0⟩ = false ∧
    Fields.legalGcm ⟨4, 0, 5, 3, 0, 0, 0⟩ = false ∧ Fields.legalGcm ⟨5, 0, 6, 0, 0, 0, 0⟩ = false ∧
    Fields.legalGcm ⟨5, 0, 5, 0, 0, 1, 0⟩ = false := by decide

theorem test_wf_legal : Fields.legal ⟨0, 0, 0, 0, 0, 0, 0⟩ = false ∧ Fields.legal ⟨6, 1, 0, 0, 0, 0, 0⟩ = false ∧
    Fields.legal ⟨15, 0, 0, 0, 0, 0, 0⟩ = false ∧ Fields.legal ⟨4, 0, 0, 0, 0, 0, 0⟩ = true := by decide

/-! ### Decode: words written out from 30_encoding.md R70 to R80 -/

/-- One word of each family written out bit by bit: bits 31:20, VSEL, 15:14, GVAR, MODE, SCHEME, OP. -/
theorem test_decode_bits :
    decode (0b000000000000#12 ++ 0b0000#4 ++ 0b00#2 ++ 0b00#2 ++ 0b0000#4 ++ 0b0111#4 ++ 0b0001#4) =
      .ok .padIso10126 ∧
    decode (0b000000000000#12 ++ 0b0000#4 ++ 0b00#2 ++ 0b00#2 ++ 0b0000#4 ++ 0b0110#4 ++ 0b0010#4) =
      .ok .unpadIso7816 ∧
    decode (0b000000000000#12 ++ 0b1001#4 ++ 0b00#2 ++ 0b00#2 ++ 0b0000#4 ++ 0b0000#4 ++ 0b0011#4) =
      .ok .valEmpty ∧
    decode (0b000000000000#12 ++ 0b0000#4 ++ 0b00#2 ++ 0b00#2 ++ 0b0000#4 ++ 0b0100#4 ++ 0b0100#4) =
      .ok .encEcbPkcs5 ∧
    decode (0b000000000000#12 ++ 0b0000#4 ++ 0b00#2 ++ 0b00#2 ++ 0b0001#4 ++ 0b0101#4 ++ 0b0101#4) =
      .ok .decCbcX923 ∧
    decode (0b000000000000#12 ++ 0b0000#4 ++ 0b00#2 ++ 0b00#2 ++ 0b0010#4 ++ 0b0001#4 ++ 0b0100#4) =
      .ok .encCfbZero ∧
    decode (0b000000000000#12 ++ 0b0000#4 ++ 0b00#2 ++ 0b00#2 ++ 0b0011#4 ++ 0b0010#4 ++ 0b0101#4) =
      .ok .decOfbBit ∧
    decode (0b000000000000#12 ++ 0b0000#4 ++ 0b00#2 ++ 0b00#2 ++ 0b0100#4 ++ 0b0011#4 ++ 0b0100#4) =
      .ok .encCtrPkcs7 ∧
    decode (0b000000000000#12 ++ 0b0000#4 ++ 0b00#2 ++ 0b10#2 ++ 0b0101#4 ++ 0b0000#4 ++ 0b0101#4) =
      .ok .decGcmTag :=
  ⟨rfl, rfl, rfl, rfl, rfl, rfl, rfl, rfl, rfl⟩

/-! Every row of the command map (30_encoding.md R80). -/

theorem test_decode_PAD :
    [0x00000011, 0x00000021, 0x00000031, 0x00000041, 0x00000051, 0x00000061, 0x00000071].map (decodeTableWord 32) =
      ([.padZero, .padBit, .padPkcs7, .padPkcs5, .padX923, .padIso7816,
       .padIso10126] : List Instr).map some := by decide

theorem test_decode_UNPAD :
    [0x00000012, 0x00000022, 0x00000032, 0x00000042, 0x00000052, 0x00000062, 0x00000072].map (decodeTableWord 32) =
      ([.unpadZero, .unpadBit, .unpadPkcs7, .unpadPkcs5, .unpadX923, .unpadIso7816,
       .unpadIso10126] : List Instr).map some := by decide

theorem test_decode_VAL :
    [0x00000003, 0x00010003, 0x00020003, 0x00030003, 0x00040003, 0x00050003, 0x00060003, 0x00070003,
     0x00080003, 0x00090003].map (decodeTableWord 32) =
      ([.valKeysize, .valBlocksize, .valIvsize, .valIveq, .valCiphertext, .valStdnonce,
       .valNoncesize, .valTagsize, .valDatasize, .valEmpty] : List Instr).map some := by decide

theorem test_decode_ENC_ECB :
    [0x00000004, 0x00000014, 0x00000024, 0x00000034, 0x00000044, 0x00000054, 0x00000064, 0x00000074].map (decodeTableWord 32) =
      ([.encEcbNone, .encEcbZero, .encEcbBit, .encEcbPkcs7, .encEcbPkcs5, .encEcbX923,
       .encEcbIso7816, .encEcbIso10126] : List Instr).map some := by decide

theorem test_decode_DEC_ECB :
    [0x00000005, 0x00000015, 0x00000025, 0x00000035, 0x00000045, 0x00000055, 0x00000065, 0x00000075].map (decodeTableWord 32) =
      ([.decEcbNone, .decEcbZero, .decEcbBit, .decEcbPkcs7, .decEcbPkcs5, .decEcbX923,
       .decEcbIso7816, .decEcbIso10126] : List Instr).map some := by decide

theorem test_decode_ENC_CBC :
    [0x00000104, 0x00000114, 0x00000124, 0x00000134, 0x00000144, 0x00000154, 0x00000164, 0x00000174].map (decodeTableWord 32) =
      ([.encCbcNone, .encCbcZero, .encCbcBit, .encCbcPkcs7, .encCbcPkcs5, .encCbcX923,
       .encCbcIso7816, .encCbcIso10126] : List Instr).map some := by decide

theorem test_decode_DEC_CBC :
    [0x00000105, 0x00000115, 0x00000125, 0x00000135, 0x00000145, 0x00000155, 0x00000165, 0x00000175].map (decodeTableWord 32) =
      ([.decCbcNone, .decCbcZero, .decCbcBit, .decCbcPkcs7, .decCbcPkcs5, .decCbcX923,
       .decCbcIso7816, .decCbcIso10126] : List Instr).map some := by decide

theorem test_decode_ENC_CFB :
    [0x00000204, 0x00000214, 0x00000224, 0x00000234, 0x00000244, 0x00000254, 0x00000264, 0x00000274].map (decodeTableWord 32) =
      ([.encCfbNone, .encCfbZero, .encCfbBit, .encCfbPkcs7, .encCfbPkcs5, .encCfbX923,
       .encCfbIso7816, .encCfbIso10126] : List Instr).map some := by decide

theorem test_decode_DEC_CFB :
    [0x00000205, 0x00000215, 0x00000225, 0x00000235, 0x00000245, 0x00000255, 0x00000265, 0x00000275].map (decodeTableWord 32) =
      ([.decCfbNone, .decCfbZero, .decCfbBit, .decCfbPkcs7, .decCfbPkcs5, .decCfbX923,
       .decCfbIso7816, .decCfbIso10126] : List Instr).map some := by decide

theorem test_decode_ENC_OFB :
    [0x00000304, 0x00000314, 0x00000324, 0x00000334, 0x00000344, 0x00000354, 0x00000364, 0x00000374].map (decodeTableWord 32) =
      ([.encOfbNone, .encOfbZero, .encOfbBit, .encOfbPkcs7, .encOfbPkcs5, .encOfbX923,
       .encOfbIso7816, .encOfbIso10126] : List Instr).map some := by decide

theorem test_decode_DEC_OFB :
    [0x00000305, 0x00000315, 0x00000325, 0x00000335, 0x00000345, 0x00000355, 0x00000365, 0x00000375].map (decodeTableWord 32) =
      ([.decOfbNone, .decOfbZero, .decOfbBit, .decOfbPkcs7, .decOfbPkcs5, .decOfbX923,
       .decOfbIso7816, .decOfbIso10126] : List Instr).map some := by decide

theorem test_decode_ENC_CTR :
    [0x00000404, 0x00000414, 0x00000424, 0x00000434, 0x00000444, 0x00000454, 0x00000464, 0x00000474].map (decodeTableWord 32) =
      ([.encCtrNone, .encCtrZero, .encCtrBit, .encCtrPkcs7, .encCtrPkcs5, .encCtrX923,
       .encCtrIso7816, .encCtrIso10126] : List Instr).map some := by decide

theorem test_decode_DEC_CTR :
    [0x00000405, 0x00000415, 0x00000425, 0x00000435, 0x00000445, 0x00000455, 0x00000465, 0x00000475].map (decodeTableWord 32) =
      ([.decCtrNone, .decCtrZero, .decCtrBit, .decCtrPkcs7, .decCtrPkcs5, .decCtrX923,
       .decCtrIso7816, .decCtrIso10126] : List Instr).map some := by decide

theorem test_decode_GCM :
    [0x00000504, 0x00000505, 0x00001504, 0x00001505, 0x00002504, 0x00002505].map (decodeTableWord 32) =
      ([.encGcmStd, .decGcmStd, .encGcmNonce, .decGcmNonce, .encGcmTag, .decGcmTag] : List Instr).map some := by decide

/-- The illegal words of 95_test_vectors.md section 3.6. -/
def illegalWords : List Nat :=
  [0x00000000, 0x00000006, 0x00000007, 0x00000001, 0x00000081, 0x000000F1, 0x00010031, 0x00000013,
   0x00000103, 0x000A0003, 0x00000514, 0x00003504, 0x00001104, 0x00000604, 0x00000744, 0x00004031,
   0x00008004, 0x00100031, 0x03000504, 0x00003505].map id

theorem test_illegal : illegalWords.all (fun w => decodeTableWord 32 w == none) = true := by decide

/-- 95_test_vectors.md section 3.6: ILLEGAL_COMMAND with the word, before anything else is looked at. -/
theorem test_illegal_command :
    illegalWords.all (fun w =>
      match step ((machine 4096).withFetchWord 32 w) with
      | .next t => t.err == .illegalCommand && t.errarg.toNat == w && t.outLen == 0 && t.done && !t.busy
      | _ => false) = true := by decide +kernel

/-- Reserved bits take the first name; a bad field is rejected by the field's name. -/
theorem test_decode_names :
    decode 0x00004031 = .error .reservedBits ∧ decode 0x00000006 = .error .operation ∧
    decode 0x00000001 = .error .scheme ∧ decode 0x00000604 = .error .mode ∧
    decode 0x00001104 = .error .gvar ∧ decode 0x000A0003 = .error .vsel := ⟨rfl, rfl, rfl, rfl, rfl, rfl⟩

/-! ### PAD (95_test_vectors.md section 3.1) -/

/-- PD1, PD9. -/
theorem test_padZero :
    outcome .padZero (padIn 8 (hexB 3 0x414141)) = some (.ok, 0, hexB 8 0x4141410000000000) ∧
    outcome .padZero (padIn 1 (hexB 3 0x414141)) = some (.ok, 0, hexB 4 0x41414100) := by
  decide +kernel

/-- PD2, PD12. -/
theorem test_padBit :
    outcome .padBit (padIn 8 (hexB 3 0x414141)) = some (.ok, 0, hexB 8 0x4141418000000000) ∧
    outcome .padBit (padIn 4 (hexB 3 0x808080)) = some (.ok, 0, hexB 4 0x80808080) := by
  decide +kernel

/-- PD3, PD8. -/
theorem test_padPkcs7 :
    outcome .padPkcs7 (padIn 8 (hexB 3 0x414141)) = some (.ok, 0, hexB 8 0x4141410505050505) ∧
    outcome .padPkcs7 (padIn 8 (hexB 8 0x4142434445464748)) = some (.ok, 0, hexB 16 0x41424344454647480808080808080808) := by
  decide +kernel

/-- PD16, PD17, PD18, PC1, PC2. -/
theorem test_padPkcs7_errors :
    outcome .padPkcs7 (padIn 8 []) = some (.emptyData, 0, []) ∧
    outcome .padPkcs7 (padIn 0 (hexB 3 0x414141)) = some (.invalidBlockSize, 0, []) ∧
    outcome .padPkcs7 (padIn 0 []) = some (.emptyData, 0, []) ∧
    outcome .padPkcs7 (padLen 8 64) = some (.capacityExceeded, 72, []) ∧
    outcome .padPkcs7 (padLen 8 65) = some (.capacityExceeded, 65, []) := by
  decide +kernel

/-- PD10, PD11. -/
theorem test_padPkcs5 :
    outcome .padPkcs5 (padIn 4 (hexB 1 0x41)) = some (.ok, 0, hexB 8 0x4107070707070707) ∧
    outcome .padPkcs5 (padIn 0 (hexB 1 0x41)) = some (.ok, 0, hexB 8 0x4107070707070707) := by
  decide +kernel

/-- PD5, PD13. -/
theorem test_padX923 :
    outcome .padX923 (padIn 8 (hexB 3 0x414141)) = some (.ok, 0, hexB 8 0x4141410000000005) ∧
    outcome .padX923 (padIn 8 (hexB 7 0x00000000000000)) = some (.ok, 0, hexB 8 0x0000000000000001) := by
  decide +kernel

/-- PD6. -/
theorem test_padIso7816 :
    outcome .padIso7816 (padIn 8 (hexB 3 0x414141)) = some (.ok, 0, hexB 8 0x4141418000000000) := by
  decide +kernel

/-- PD7, PD14, PD15. -/
theorem test_padIso10126 :
    outcome .padIso10126 (answered (padIn 8 (hexB 3 0x414141)) [rngAns 4]) = some (.ok, 0, hexB 8 0x414141AAAAAAAA05) ∧
    outcome .padIso10126 (padIn 8 (hexB 7 0x00000000000000)) = some (.ok, 0, hexB 8 0x0000000000000001) ∧
    outcome .padIso10126 (answered (padIn 8 (hexB 3 0x414141)) [⟨.rngFill 4, .fail⟩]) = some (.entropyError, 4, []) := by
  decide +kernel

/-- PD7: one request, for 4 bytes. -/
theorem test_padIso10126_asks : waitsFor .padIso10126 (padIn 8 (hexB 3 0x414141)) = some (.rngFill 4) := by
  decide +kernel

/-! ### UNPAD (95_test_vectors.md section 3.2) -/

/-- UZ1, UZ2, UZ3, UZ5. -/
theorem test_unpadZero :
    outcome .unpadZero (padIn 8 (hexB 8 0x4141410000000000)) = some (.ok, 0, hexB 3 0x414141) ∧
    outcome .unpadZero (padIn 8 (hexB 8 0x0000000000000000)) = some (.ok, 0, []) ∧
    outcome .unpadZero (padIn 8 (hexB 3 0x414141)) = some (.invalidData, 3, []) ∧
    outcome .unpadZero (padIn 8 (hexB 16 0x41000000000000000000000000000000)) = some (.ok, 0, hexB 1 0x41) := by
  decide +kernel

/-- UB2, UB4, UB5, UB3. -/
theorem test_unpadBit :
    outcome .unpadBit (padIn 8 (hexB 8 0x0000000000000000)) = some (.invalidData, 8, []) ∧
    outcome .unpadBit (padIn 8 (hexB 8 0x4141414141414180)) = some (.ok, 0, hexB 7 0x41414141414141) ∧
    outcome .unpadBit (padIn 8 (hexB 16 0x41800000000000000000000000000000)) = some (.ok, 0, hexB 1 0x41) ∧
    outcome .unpadBit (padIn 8 (hexB 8 0x4141410000000000)) = some (.invalidData, 8, []) := by
  decide +kernel

/-- UP1, UP2, UP6. -/
theorem test_unpadPkcs7 :
    outcome .unpadPkcs7 (padIn 8 (hexB 8 0x4141410505050505)) = some (.ok, 0, hexB 3 0x414141) ∧
    outcome .unpadPkcs7 (padIn 8 (hexB 8 0x4141410505050501)) = some (.ok, 0, hexB 7 0x41414105050505) ∧
    outcome .unpadPkcs7 (padIn 4 (hexB 12 0x414141410606060606060606)) = some (.ok, 0, hexB 6 0x414141410606) := by
  decide +kernel

/-- UP3, UP4, UP5. -/
theorem test_unpadPkcs7_errors :
    outcome .unpadPkcs7 (padIn 8 (hexB 8 0x4141410505050500)) = some (.invalidData, 8, []) ∧
    outcome .unpadPkcs7 (padIn 8 (hexB 8 0x4141410505050509)) = some (.invalidData, 8, []) ∧
    outcome .unpadPkcs7 (padIn 8 (hexB 8 0x4141410505050605)) = some (.invalidData, 8, []) := by
  decide +kernel

/-- U51, U52. -/
theorem test_unpadPkcs5 :
    outcome .unpadPkcs5 (padIn 3 (hexB 8 0x4107070707070707)) = some (.ok, 0, hexB 1 0x41) ∧
    outcome .unpadPkcs5 (padIn 8 (hexB 4 0x41070707)) = some (.invalidData, 4, []) := by
  decide +kernel

/-- UX2, UX6. -/
theorem test_unpadX923 :
    outcome .unpadX923 (padIn 8 (hexB 8 0x4141410000000003)) = some (.ok, 0, hexB 5 0x4141410000) ∧
    outcome .unpadX923 (padIn 4 (hexB 12 0x414141410000000000000006)) = some (.ok, 0, hexB 6 0x414141410000) := by
  decide +kernel

/-- UX3, UX4, UX5. -/
theorem test_unpadX923_errors :
    outcome .unpadX923 (padIn 8 (hexB 8 0x4141410000000000)) = some (.invalidData, 8, []) ∧
    outcome .unpadX923 (padIn 8 (hexB 8 0x4141410000000009)) = some (.invalidData, 8, []) ∧
    outcome .unpadX923 (padIn 8 (hexB 8 0x4141410000010005)) = some (.invalidData, 8, []) := by
  decide +kernel

/-- UI2, UI3, UI5. -/
theorem test_unpadIso7816 :
    outcome .unpadIso7816 (padIn 8 (hexB 8 0x4141418000000100)) = some (.ok, 0, hexB 3 0x414141) ∧
    outcome .unpadIso7816 (padIn 8 (hexB 16 0x80414141414141410000000000000000)) = some (.invalidData, 16, []) ∧
    outcome .unpadIso7816 (padIn 8 (hexB 8 0x4141418000800000)) = some (.ok, 0, hexB 5 0x4141418000) := by
  decide +kernel

/-- UR1, UR2, UR5. -/
theorem test_unpadIso10126 :
    outcome .unpadIso10126 (padIn 8 (hexB 8 0x414141AAAAAAAA05)) = some (.ok, 0, hexB 3 0x414141) ∧
    outcome .unpadIso10126 (padIn 8 (hexB 8 0x4141414141414100)) = some (.ok, 0, hexB 8 0x4141414141414100) ∧
    outcome .unpadIso10126 (padIn 8 (hexB 8 0x4141414141414108)) = some (.ok, 0, []) := by
  decide +kernel

/-- UR3, UR4, UE2, UE3. -/
theorem test_unpadIso10126_errors :
    outcome .unpadIso10126 (padIn 4 (hexB 4 0x41AAAA05)) = some (.invalidData, 4, []) ∧
    outcome .unpadIso10126 (padIn 8 (hexB 8 0x4141414141414109)) = some (.invalidData, 8, []) ∧
    outcome .unpadIso10126 (padIn 0 (hexB 8 0x4141414141414141)) = some (.invalidBlockSize, 0, []) ∧
    outcome .unpadIso10126 (padIn 8 (hexB 7 0x41414141414141)) = some (.invalidData, 7, []) := by
  decide +kernel

/-! ### VAL (95_test_vectors.md section 3.3) -/

/-- V1, V2, V3. -/
theorem test_valKeysize :
    outcome .valKeysize (valIn 32 0) = some (.ok, 0, []) ∧
    outcome .valKeysize (valIn 4294967312 0) = some (.invalidKeySize, 4294967312, []) ∧
    outcome .valKeysize (valIn 18446744073709551615 0) = some (.invalidKeySize, 18446744073709551615, []) := by
  decide +kernel

/-- V4, R152. -/
theorem test_valBlocksize :
    outcome .valBlocksize (valIn 8 0) = some (.invalidBlockSize, 8, []) ∧
    outcome .valBlocksize (valIn 24 0) = some (.ok, 0, []) := by
  decide +kernel

/-- V5, R153. -/
theorem test_valIvsize :
    outcome .valIvsize (valIn 12 0) = some (.invalidIvSize, 12, []) ∧
    outcome .valIvsize (valIn 16 0) = some (.ok, 0, []) := by
  decide +kernel

/-- V6, V7, V8, V9. -/
theorem test_valIveq :
    outcome .valIveq (valIn 15 16) = some (.invalidIvSize, 15, []) ∧
    outcome .valIveq (valIn 24 16) = some (.ivSizeMismatch, 24, []) ∧
    outcome .valIveq (valIn 16 8) = some (.invalidBlockSize, 8, []) ∧
    outcome .valIveq (valIn 16 16) = some (.ok, 0, []) := by
  decide +kernel

/-- V10, V11, V12, V13. -/
theorem test_valCiphertext :
    outcome .valCiphertext (valIn 0 16) = some (.ok, 0, []) ∧
    outcome .valCiphertext (valIn 17 16) = some (.invalidCiphertext, 17, []) ∧
    outcome .valCiphertext (valIn 5 0) = some (.invalidCiphertext, 5, []) ∧
    outcome .valCiphertext (valIn 48 24) = some (.ok, 0, []) := by
  decide +kernel

/-- V14, V15. -/
theorem test_valStdnonce :
    outcome .valStdnonce (valIn 12 0) = some (.ok, 0, []) ∧
    outcome .valStdnonce (valIn 16 0) = some (.invalidNonceSize, 16, []) := by
  decide +kernel

/-- V16, V17. -/
theorem test_valNoncesize :
    outcome .valNoncesize (valIn 0 0) = some (.invalidNonceSize, 0, []) ∧
    outcome .valNoncesize (valIn 18446744073709551615 0) = some (.ok, 0, []) := by
  decide +kernel

/-- V18 to V21. -/
theorem test_valTagsize :
    outcome .valTagsize (valIn 12 0) = some (.ok, 0, []) ∧
    outcome .valTagsize (valIn 16 0) = some (.ok, 0, []) ∧
    outcome .valTagsize (valIn 11 0) = some (.invalidTagSize, 11, []) ∧
    outcome .valTagsize (valIn 17 0) = some (.invalidTagSize, 17, []) := by
  decide +kernel

/-- V22 to V25. -/
theorem test_valDatasize :
    outcome .valDatasize (valIn 68719476704 16) = some (.ok, 0, []) ∧
    outcome .valDatasize (valIn 68719476705 16) = some (.dataTooLarge, 68719476705, []) ∧
    outcome .valDatasize (valIn 1 0) = some (.dataTooLarge, 1, []) ∧
    outcome .valDatasize (valIn 0 0) = some (.ok, 0, []) := by
  decide +kernel

/-- V26, V27. -/
theorem test_valEmpty :
    outcome .valEmpty (valIn 0 0) = some (.emptyData, 0, []) ∧
    outcome .valEmpty (valIn 1 0) = some (.ok, 0, []) := by
  decide +kernel

/-! ### ENC and DEC with TC (95_test_vectors.md section 3.4) -/

/-- M6. -/
theorem test_encEcbNone :
    outcome .encEcbNone (tcIn (hexB 32 0x00112233445566778899AABBCCDDEEFFFFEEDDCCBBAA99887766554433221100) (tcEnc [hexB 16 0x00112233445566778899AABBCCDDEEFF, hexB 16 0xFFEEDDCCBBAA99887766554433221100])) = some (.ok, 0, hexB 32 0x112331475163718F91A3B1C7D1E3F10FEEDCCEB8AE9C8E706E5C4E382E1C0EF0) := by
  decide +kernel

/-- M7. -/
theorem test_encCbcNone :
    outcome .encCbcNone (tcIn (hexB 32 0x00112233445566778899AABBCCDDEEFFFFEEDDCCBBAA99887766554433221100) (tcEnc [hexB 16 0xF0E0D0C0B0A090807060504030201000, hexB 16 0x1F3F1F7F1F3F1FFF1F3F1F7F1F3F1FFF])) = some (.ok, 0, hexB 32 0xE0D1C2B3A495867768594A3B2C1D0EFF3F1E7D1C3B1AF918371675143312F110) := by
  decide +kernel

/-- M8. -/
theorem test_encCfbNone :
    outcome .encCfbNone (tcIn (hexB 32 0x00112233445566778899AABBCCDDEEFFFFEEDDCCBBAA99887766554433221100) (tcEnc [hexB 16 0xF0F1F2F3F4F5F6F7F8F9FAFBFCFDFEFF, hexB 16 0xF1E2D3C4B5A69788796A5B4C3D2E1F00])) = some (.ok, 0, hexB 32 0xF1E2D3C4B5A69788796A5B4C3D2E1F001D3C1B7A193817F61534137211301FFE) := by
  decide +kernel

/-- M9. -/
theorem test_encOfbNone :
    outcome .encOfbNone (tcIn (hexB 32 0x00112233445566778899AABBCCDDEEFFFFEEDDCCBBAA99887766554433221100) (tcEnc [hexB 16 0xF0F1F2F3F4F5F6F7F8F9FAFBFCFDFEFF, hexB 16 0xF1F3F1F7F1F3F1FFF1F3F1F7F1F3F1FF])) = some (.ok, 0, hexB 32 0xF1E2D3C4B5A69788796A5B4C3D2E1F000C1E283E4C5E607E8C9EA8BECCDEE0FE) := by
  decide +kernel

/-- M10. -/
theorem test_encCtrNone :
    outcome .encCtrNone (tcIn (hexB 32 0x00112233445566778899AABBCCDDEEFFFFEEDDCCBBAA99887766554433221100) (tcEnc [hexB 16 0xF0F1F2F3F4F5F6F7F8F9FAFBFCFDFEFF, hexB 16 0xF0F1F2F3F4F5F6F7F8F9FAFBFCFDFF00])) = some (.ok, 0, hexB 32 0xF1E2D3C4B5A69788796A5B4C3D2E1F000E1D2C3B4A5968778695A4B3C2D01FFF) := by
  decide +kernel

/-- M11. The way back. -/
theorem test_decEcbPkcs7 :
    outcome .decEcbPkcs7 (tcIn (hexB 32 0x414043424544474649484B4A4D4C4F4E4140430F08090A0B040506070001024E) (tcDec [hexB 16 0x414043424544474649484B4A4D4C4F4E, hexB 16 0x4140430F08090A0B040506070001024E])) = some (.ok, 0, hexB 20 0x4141414141414141414141414141414141414141) := by
  decide +kernel

/-- M12. The way back. -/
theorem test_decCbcPkcs7 :
    outcome .decCbcPkcs7 (tcIn (hexB 32 0xB0B2B0B6B0B2B0BEB0B2B0B6B0B2B0BEF3F0F5BFBAB9B4BBB6B5B0B7B2B1BCFE) (tcDec [hexB 16 0xB0B2B0B6B0B2B0BEB0B2B0B6B0B2B0BE, hexB 16 0xF3F0F5BFBAB9B4BBB6B5B0B7B2B1BCFE])) = some (.ok, 0, hexB 20 0x4141414141414141414141414141414141414141) := by
  decide +kernel

/-- M13. The way back. -/
theorem test_decCfbPkcs7 :
    outcome .decCfbPkcs7 (tcIn (hexB 32 0xB0B2B0B6B0B2B0BEB0B2B0B6B0B2B0BEF3F0F5F2BAB9B4BBB6B5B0B7B2B1BCB3) (tcEnc [hexB 16 0xF0F1F2F3F4F5F6F7F8F9FAFBFCFDFEFF, hexB 16 0xB0B2B0B6B0B2B0BEB0B2B0B6B0B2B0BE])) = some (.ok, 0, hexB 20 0x4141414141414141414141414141414141414141) := by
  decide +kernel

/-- M14. The way back. -/
theorem test_decOfbPkcs7 :
    outcome .decOfbPkcs7 (tcIn (hexB 32 0xB0B2B0B6B0B2B0BEB0B2B0B6B0B2B0BEB2B1B4B3FBF8F5FAF7F4F1F6F3F0FDF2) (tcEnc [hexB 16 0xF0F1F2F3F4F5F6F7F8F9FAFBFCFDFEFF, hexB 16 0xF1F3F1F7F1F3F1FFF1F3F1F7F1F3F1FF])) = some (.ok, 0, hexB 20 0x4141414141414141414141414141414141414141) := by
  decide +kernel

/-- M15. The way back. -/
theorem test_decCtrPkcs7 :
    outcome .decCtrPkcs7 (tcIn (hexB 32 0xB0B2B0B6B0B2B0BEB0B2B0B6B0B2B0BEB0B2B0B6FDFFFDF3FDFFFDFBFDFE02F3) (tcEnc [hexB 16 0xF0F1F2F3F4F5F6F7F8F9FAFBFCFDFEFF, hexB 16 0xF0F1F2F3F4F5F6F7F8F9FAFBFCFDFF00])) = some (.ok, 0, hexB 20 0x4141414141414141414141414141414141414141) := by
  decide +kernel

/-- M16: a short input. -/
theorem test_encCfbNone_short :
    outcome .encCfbNone (tcIn (hexB 5 0x0011223344) (tcEnc [hexB 16 0xF0F1F2F3F4F5F6F7F8F9FAFBFCFDFEFF])) = some (.ok, 0, hexB 5 0xF1E2D3C4B5) := by
  decide +kernel

/-- M16: a short input. The way back. -/
theorem test_decCfbNone_short :
    outcome .decCfbNone (tcIn (hexB 5 0xF1E2D3C4B5) (tcEnc [hexB 16 0xF0F1F2F3F4F5F6F7F8F9FAFBFCFDFEFF])) = some (.ok, 0, hexB 5 0x0011223344) := by
  decide +kernel

/-- M17: the counter wraps. -/
theorem test_encCtrNone_wrap :
    outcome .encCtrNone (answered (loaded 4096 (hexB 32 0x0000000000000000000000000000000000000000000000000000000000000000) tcK (hexB 16 0xFFFFFFFFFFFFFFFFFFFFFFFFFFFFFFFF) []) (tcEnc [hexB 16 0xFFFFFFFFFFFFFFFFFFFFFFFFFFFFFFFF, hexB 16 0x00000000000000000000000000000000])) = some (.ok, 0, hexB 32 0xFFFEFDFCFBFAF9F8F7F6F5F4F3F2F1F0000102030405060708090A0B0C0D0E0F) := by
  decide +kernel

/-- M18. -/
theorem test_encOfbNone_short :
    outcome .encOfbNone (tcIn (hexB 1 0x41) (tcEnc [hexB 16 0xF0F1F2F3F4F5F6F7F8F9FAFBFCFDFEFF])) = some (.ok, 0, hexB 1 0xB0) := by
  decide +kernel

/-- M18. The way back. -/
theorem test_decOfbNone_short :
    outcome .decOfbNone (tcIn (hexB 1 0xB0) (tcEnc [hexB 16 0xF0F1F2F3F4F5F6F7F8F9FAFBFCFDFEFF])) = some (.ok, 0, hexB 1 0x41) := by
  decide +kernel

/-- M19. -/
theorem test_encEcbPkcs5 :
    outcome .encEcbPkcs5 (tcIn (hexB 9 0x414141414141414141) (tcEnc [hexB 16 0x41414141414141414107070707070707])) = some (.ok, 0, hexB 16 0x41404342454447460F0E0D0C0B0A094E) := by
  decide +kernel

/-- M19. The way back. -/
theorem test_decEcbPkcs5 :
    outcome .decEcbPkcs5 (tcIn (hexB 16 0x41404342454447460F0E0D0C0B0A094E) (tcDec [hexB 16 0x41404342454447460F0E0D0C0B0A094E])) = some (.ok, 0, hexB 9 0x414141414141414141) := by
  decide +kernel

/-- M21. -/
theorem test_encCbcPkcs5 :
    outcome .encCbcPkcs5 (tcIn (hexB 8 0x0000000000000000) (tcEnc [hexB 16 0xF0F1F2F3F4F5F6F7F0F1F2F3F4F5F6F7])) = some (.ok, 0, hexB 16 0xF1F3F1F7F1F3F1F7F9FBF9FFF9FBF9FF) := by
  decide +kernel

/-- M21. The way back. -/
theorem test_decCbcPkcs5 :
    outcome .decCbcPkcs5 (tcIn (hexB 16 0xF1F3F1F7F1F3F1F7F9FBF9FFF9FBF9FF) (tcDec [hexB 16 0xF1F3F1F7F1F3F1F7F9FBF9FFF9FBF9FF])) = some (.ok, 0, hexB 8 0x0000000000000000) := by
  decide +kernel

/-- M22. -/
theorem test_encCtrPkcs5 :
    outcome .encCtrPkcs5 (tcIn (hexB 3 0x414141) (tcEnc [hexB 16 0xF0F1F2F3F4F5F6F7F8F9FAFBFCFDFEFF])) = some (.ok, 0, hexB 8 0xB0B2B0F2F4F6F4FA) := by
  decide +kernel

/-- M22. The way back. -/
theorem test_decCtrPkcs5 :
    outcome .decCtrPkcs5 (tcIn (hexB 8 0xB0B2B0F2F4F6F4FA) (tcEnc [hexB 16 0xF0F1F2F3F4F5F6F7F8F9FAFBFCFDFEFF])) = some (.ok, 0, hexB 3 0x414141) := by
  decide +kernel

/-- M24. -/
theorem test_encEcbIso10126 :
    outcome .encEcbIso10126 (tcIn (hexB 3 0x414141) (tcEnc [hexB 16 0x414141AAAAAAAAAAAAAAAAAAAAAAAA0D] ++ [rngAns 12])) = some (.ok, 0, hexB 16 0x4140A8A9AEAFACADA2A3A0A1A6A7034E) := by
  decide +kernel

/-- M24. The way back. -/
theorem test_decEcbIso10126 :
    outcome .decEcbIso10126 (tcIn (hexB 16 0x4140A8A9AEAFACADA2A3A0A1A6A7034E) (tcDec [hexB 16 0x4140A8A9AEAFACADA2A3A0A1A6A7034E])) = some (.ok, 0, hexB 3 0x414141) := by
  decide +kernel

/-- M26. -/
theorem test_encCfbZero :
    outcome .encCfbZero (tcIn (hexB 3 0x414141) (tcEnc [hexB 16 0xF0F1F2F3F4F5F6F7F8F9FAFBFCFDFEFF])) = some (.ok, 0, hexB 16 0xB0B2B0F7F1F3F1FFF1F3F1F7F1F3F1FF) := by
  decide +kernel

/-- M26. The way back. -/
theorem test_decCfbZero :
    outcome .decCfbZero (tcIn (hexB 16 0xB0B2B0F7F1F3F1FFF1F3F1F7F1F3F1FF) (tcEnc [hexB 16 0xF0F1F2F3F4F5F6F7F8F9FAFBFCFDFEFF])) = some (.ok, 0, hexB 3 0x414141) := by
  decide +kernel

/-- M28. -/
theorem test_encOfbIso10126 :
    outcome .encOfbIso10126 (tcIn (hexB 1 0x41) (tcEnc [hexB 16 0xF0F1F2F3F4F5F6F7F8F9FAFBFCFDFEFF] ++ [rngAns 14])) = some (.ok, 0, hexB 16 0xB0595B5D5B595B555B595B5D5B595BF0) := by
  decide +kernel

/-- M28. The way back. -/
theorem test_decOfbIso10126 :
    outcome .decOfbIso10126 (tcIn (hexB 16 0xB0595B5D5B595B555B595B5D5B595BF0) (tcEnc [hexB 16 0xF0F1F2F3F4F5F6F7F8F9FAFBFCFDFEFF])) = some (.ok, 0, hexB 1 0x41) := by
  decide +kernel

/-- M29. -/
theorem test_encCtrX923 :
    outcome .encCtrX923 (tcIn (hexB 1 0x41) (tcEnc [hexB 16 0xF0F1F2F3F4F5F6F7F8F9FAFBFCFDFEFF])) = some (.ok, 0, hexB 16 0xB0F3F1F7F1F3F1FFF1F3F1F7F1F3F1F0) := by
  decide +kernel

/-- M29. The way back. -/
theorem test_decCtrX923 :
    outcome .decCtrX923 (tcIn (hexB 16 0xB0F3F1F7F1F3F1FFF1F3F1F7F1F3F1F0) (tcEnc [hexB 16 0xF0F1F2F3F4F5F6F7F8F9FAFBFCFDFEFF])) = some (.ok, 0, hexB 1 0x41) := by
  decide +kernel

/-- M30. -/
theorem test_encCfbBit :
    outcome .encCfbBit (tcIn (hexB 1 0x41) (tcEnc [hexB 16 0xF0F1F2F3F4F5F6F7F8F9FAFBFCFDFEFF])) = some (.ok, 0, hexB 16 0xB073F1F7F1F3F1FFF1F3F1F7F1F3F1FF) := by
  decide +kernel

/-- M30. The way back. -/
theorem test_decCfbBit :
    outcome .decCfbBit (tcIn (hexB 16 0xB073F1F7F1F3F1FFF1F3F1F7F1F3F1FF) (tcEnc [hexB 16 0xF0F1F2F3F4F5F6F7F8F9FAFBFCFDFEFF])) = some (.ok, 0, hexB 1 0x41) := by
  decide +kernel

/-- M31. -/
theorem test_encEcbIso7816 :
    outcome .encEcbIso7816 (tcIn (hexB 1 0x41) (tcEnc [hexB 16 0x41800000000000000000000000000000])) = some (.ok, 0, hexB 16 0x800102030405060708090A0B0C0D0E4E) := by
  decide +kernel

/-- M31. The way back. -/
theorem test_decEcbIso7816 :
    outcome .decEcbIso7816 (tcIn (hexB 16 0x800102030405060708090A0B0C0D0E4E) (tcDec [hexB 16 0x800102030405060708090A0B0C0D0E4E])) = some (.ok, 0, hexB 1 0x41) := by
  decide +kernel

/-- M27. -/
theorem test_encEcbZero :
    outcome .encEcbZero (tcIn (hexB 16 0x00000000000000000000000000000000) (tcEnc [hexB 16 0x00000000000000000000000000000000])) = some (.ok, 0, hexB 32 0x000102030405060708090A0B0C0D0E0F000102030405060708090A0B0C0D0E0F) := by
  decide +kernel

/-- M27: the loss of ZERO. -/
theorem test_decEcbZero :
    outcome .decEcbZero (tcIn (hexB 32 0x000102030405060708090A0B0C0D0E0F000102030405060708090A0B0C0D0E0F) (tcDec [hexB 16 0x000102030405060708090A0B0C0D0E0F])) = some (.ok, 0, []) := by
  decide +kernel

/-- M32, M33: ECB reads no IV; a 24-byte key is valid. -/
theorem test_encEcbNone_m32 :
    outcome .encEcbNone { tcIn p16 (tcEnc [p16]) with ivLen := 3 } =
      some (.ok, 0, hexB 16 0x112331475163718F91A3B1C7D1E3F10F) ∧
    outcome .encEcbNone
        (answered (loaded 4096 (hexB 16 0) (hexB 24 0x000102030405060708090A0B0C0D0E0F1011121314151617) [] [])
          [⟨.cipherInit (hexB 24 0x000102030405060708090A0B0C0D0E0F1011121314151617), .ok⟩,
           ⟨.encryptBlock (hexB 24 0x000102030405060708090A0B0C0D0E0F1011121314151617) (hexB 16 0),
            .bytes (tcE (hexB 24 0x000102030405060708090A0B0C0D0E0F1011121314151617) (hexB 16 0))⟩]) =
      some (.ok, 0, hexB 16 0x000102030405060708090A0B0C0D0E0F) := by decide +kernel

/-- ME1, ME2, ME3, ME4, ME7, ME8, ME10, M20. -/
theorem test_mode_errors :
    [outcome .encEcbNone (modeLen 4096 17 16),
     outcome .encCbcNone (modeLen 4096 16 15),
     outcome .encCbcNone (modeLen 4096 16 24),
     outcome .encCbcNone (modeLen 4096 16 32),
     outcome .encCbcNone (modeLen 4096 17 15),
     outcome .encCfbNone (modeLen 4096 5 0),
     outcome .decEcbNone (modeLen 4096 17 16),
     outcome .encEcbPkcs5 (modeLen 4096 3 16)] =
      [some (.invalidData, 17, []),
       some (.invalidIvSize, 15, []),
       some (.ivSizeMismatch, 24, []),
       some (.ivSizeMismatch, 32, []),
       some (.invalidIvSize, 15, []),
       some (.invalidIvSize, 0, []),
       some (.invalidCiphertext, 17, []),
       some (.invalidData, 8, [])] := by
  decide +kernel

/-- ME14 to ME18, ME21. -/
theorem test_mode_capacity :
    [outcome .encEcbPkcs7 (modeLen 4096 4096 16),
     outcome .encEcbNone (modeLen 4096 4112 16),
     outcome .encEcbNone (modeLen 64 80 16),
     outcome .encEcbNone (modeLen 64 65 16),
     outcome .decEcbNone (modeLen 64 80 16),
     outcome .encEcbPkcs7 (modeLen 64 64 16)] =
      [some (.capacityExceeded, 4112, []),
       some (.capacityExceeded, 4112, []),
       some (.capacityExceeded, 80, []),
       some (.invalidData, 65, []),
       some (.capacityExceeded, 80, []),
       some (.capacityExceeded, 80, [])] := by
  decide +kernel

/-- ME5, ME6, ME9: the key is checked before the IV, and emptiness before the key. -/
theorem test_mode_priority :
    outcome .encCbcNone { modeLen 4096 16 15 with keyLen := 15 } = some (.invalidKeySize, 15, []) ∧
    outcome .encCbcNone { modeLen 4096 0 16 with keyLen := 15 } = some (.emptyData, 0, []) ∧
    outcome .encEcbNone { modeLen 4096 1 16 with keyLen := 15 } = some (.invalidKeySize, 15, []) := by
  decide +kernel

/-- ME11, ME12, M23. -/
theorem test_dec_trailer :
    outcome .decCbcPkcs7 (tcIn (hexB 16 0x00000000000000000000000000000000) (tcDec [hexB 16 0x00000000000000000000000000000000])) = some (.invalidData, 16, []) ∧
    outcome .decCfbPkcs7 (tcIn (hexB 5 0x0000000000) (tcEnc [hexB 16 0xF0F1F2F3F4F5F6F7F8F9FAFBFCFDFEFF])) = some (.invalidData, 5, []) ∧
    outcome .decCtrPkcs5 (tcIn (hexB 12 0x000000000000000000000000) (tcEnc [hexB 16 0xF0F1F2F3F4F5F6F7F8F9FAFBFCFDFEFF])) = some (.invalidData, 12, []) := by
  decide +kernel

/-- ME19, M25. -/
theorem test_mode_collaborators :
    outcome .encEcbNone (answered (loaded 4096 p16 tcK [] []) [⟨.cipherInit tcK, .fail⟩]) = some (.cipherInitFailed, 0, []) ∧
    outcome .encEcbIso10126 (tcIn (hexB 3 0x414141) (tcEnc [] ++ [⟨.rngFill 12, .fail⟩])) = some (.entropyError, 12, []) := by
  decide +kernel

/-- 42_modes.md R212: construction first, then the filler, then the blocks in order. -/
theorem test_request_order :
    waitsFor .encCbcIso10126 (tcIn (hexB 3 0x414141) []) = some (.cipherInit tcK) ∧
    waitsFor .encCbcIso10126 (tcIn (hexB 3 0x414141) (tcEnc [])) = some (.rngFill 12) ∧
    waitsFor .encEcbNone (tcIn p32 (tcEnc [])) = some (.encryptBlock tcK p16) ∧
    waitsFor .encEcbNone (tcIn p32 (tcEnc [p16])) =
      some (.encryptBlock tcK (hexB 16 0xFFEEDDCCBBAA99887766554433221100)) := by decide +kernel

/-! ### GCM (95_test_vectors.md section 3.5; the AES-GCM answers are those the vectors give) -/

/-- The answers of an AEAD of tag size `t`: its two constructions, and one more. -/
def gcmAns (key : Bytes) (n t : Nat) (l : List Answered) : List Answered :=
  ⟨.cipherInit key, .ok⟩ :: ⟨.aeadInit n t, .ok⟩ :: l

def z16 : Bytes := hexB 16 0
def n12 : Bytes := hexB 12 0
def g1 : Bytes := hexB 32 0x0388DACE60B6A392F328C2B971B2FE78AB6E47D42CEC13BDF53A67B21257BDDF

/-- G1, and GE13: the AEAD cannot be constructed. -/
theorem test_encGcmStd :
    outcome .encGcmStd (answered (loaded 4096 z16 z16 n12 [])
      (gcmAns z16 12 16 [⟨.sealData 16 z16 n12 z16 [], .bytes g1⟩])) = some (.ok, 0, g1) ∧
    outcome .encGcmStd (answered (loaded 4096 z16 z16 n12 []) [⟨.cipherInit z16, .ok⟩, ⟨.aeadInit 12 16, .fail⟩]) =
      some (.cipherInitFailed, 0, []) := by decide +kernel

/-- G2, G3, G6, G7. -/
theorem test_decGcmStd :
    outcome .decGcmStd (answered (loaded 4096 g1 z16 n12 [])
      (gcmAns z16 12 16 [⟨.openData 16 z16 n12 g1 [], .bytes z16⟩])) = some (.ok, 0, z16) ∧
    outcome .decGcmStd (answered (loaded 4096 g1 z16 n12 [])
      (gcmAns z16 12 16 [⟨.openData 16 z16 n12 g1 [], .fail⟩])) = some (.authenticationFailed, 0, []) ∧
    outcome .decGcmStd (answered (loaded 4096 (hexB 16 0x58E2FCCEFA7E3061367F1D57A4E7455A) z16 n12 [])
      (gcmAns z16 12 16 [⟨.openData 16 z16 n12 (hexB 16 0x58E2FCCEFA7E3061367F1D57A4E7455A) [], .bytes []⟩])) =
      some (.ok, 0, []) ∧
    outcome .decGcmStd (answered (loaded 4096 (hexB 8 0) z16 n12 []) (gcmAns z16 12 16 [])) =
      some (.authenticationFailed, 0, []) := by decide +kernel

/-- G11. -/
theorem test_encGcmNonce :
    outcome .encGcmNonce (answered (loaded 4096 z16 z16 z16 [])
      (gcmAns z16 16 16 [⟨.sealData 16 z16 z16 z16 [],
        .bytes (hexB 32 0xA3B22B8449AFAFBCD6C09F2CFA9DE2BED8B820BAB954BD1647D8A9C3D534E7A3)⟩])) =
      some (.ok, 0, hexB 32 0xA3B22B8449AFAFBCD6C09F2CFA9DE2BED8B820BAB954BD1647D8A9C3D534E7A3) := by
  decide +kernel

/-- G11, the way back. -/
theorem test_decGcmNonce :
    outcome .decGcmNonce
      (answered (loaded 4096 (hexB 32 0xA3B22B8449AFAFBCD6C09F2CFA9DE2BED8B820BAB954BD1647D8A9C3D534E7A3) z16 z16 [])
        (gcmAns z16 16 16 [⟨.openData 16 z16 z16
          (hexB 32 0xA3B22B8449AFAFBCD6C09F2CFA9DE2BED8B820BAB954BD1647D8A9C3D534E7A3) [], .bytes z16⟩])) =
      some (.ok, 0, z16) := by decide +kernel

/-- G13: a 12-byte tag. -/
theorem test_encGcmTag :
    outcome .encGcmTag { answered (loaded 4096 z16 z16 n12 [])
      (gcmAns z16 12 12 [⟨.sealData 12 z16 n12 z16 [], .bytes (g1.take 28)⟩]) with tagsz := 12 } =
      some (.ok, 0, hexB 28 0x0388DACE60B6A392F328C2B971B2FE78AB6E47D42CEC13BDF53A67B2) := by decide +kernel

/-- G14, G15. -/
theorem test_decGcmTag :
    outcome .decGcmTag { answered (loaded 4096 (g1.take 28) z16 n12 [])
      (gcmAns z16 12 12 [⟨.openData 12 z16 n12 (g1.take 28) [], .bytes z16⟩]) with tagsz := 12 } =
      some (.ok, 0, z16) ∧
    outcome .decGcmTag { answered (loaded 4096 (g1.take 28) z16 n12 [])
      (gcmAns z16 12 13 [⟨.openData 13 z16 n12 (g1.take 28) [], .fail⟩]) with tagsz := 13 } =
      some (.authenticationFailed, 0, []) := by decide +kernel

/-- Lengths, tag size and capacity of a GCM command, its two constructions made. -/
def gcmLen (cap n ivLen aad t ct : Nat) : State :=
  { answered (loaded cap [] z16 [] []) (gcmAns z16 ivLen ct []) with
    inLen  := BitVec.ofNat 64 n
    ivLen  := BitVec.ofNat 64 ivLen
    aadLen := BitVec.ofNat 64 aad
    tagsz  := BitVec.ofNat 8 t }

/-- GE1 to GE6, G5. -/
theorem test_gcm_checks :
    [outcome .encGcmStd (gcmLen 4096 1 16 0 0 16),
     outcome .encGcmNonce (gcmLen 4096 1 0 0 0 16),
     outcome .encGcmTag (gcmLen 4096 1 16 0 0 16),
     outcome .encGcmTag (gcmLen 4096 1 12 0 0 16),
     outcome .encGcmTag (gcmLen 4096 1 12 0 11 16),
     outcome .encGcmTag (gcmLen 4096 1 12 0 17 16),
     outcome .encGcmStd (gcmLen 4096 0 12 0 0 16)] =
      [some (.invalidNonceSize, 16, []),
       some (.invalidNonceSize, 0, []),
       some (.invalidNonceSize, 16, []),
       some (.invalidTagSize, 0, []),
       some (.invalidTagSize, 11, []),
       some (.invalidTagSize, 17, []),
       some (.emptyData, 0, [])] := by
  decide +kernel

/-- GE7 to GE10, GE12. -/
theorem test_gcm_sizes :
    outcome .encGcmStd (gcmLen 4096 68719476705 12 0 0 16) = some (.dataTooLarge, 68719476705, []) ∧
    outcome .decGcmStd (gcmLen 4096 68719476721 12 0 0 16) = some (.dataTooLarge, 68719476705, []) ∧
    outcome .encGcmNonce (gcmLen 64 1 65 0 0 16) = some (.capacityExceeded, 65, []) ∧
    outcome .encGcmStd (gcmLen 64 49 12 0 0 16) = some (.capacityExceeded, 65, []) ∧
    outcome .encGcmStd (gcmLen 64 1 12 65 0 16) = some (.capacityExceeded, 65, []) := by
  decide +kernel

/-! ### Reset and the interface (95_test_vectors.md section 3.7) -/

/-- The step that a word placed after reset runs, for every legal word: it ends the command, with the results
of 70_reset_and_hazards.md R272. -/
def afterReset (w : Nat) : Option Code :=
  match step (State.reset.withFetchWord 32 w) with
  | .next t => if t.busy then none else some t.err
  | _ => none

theorem test_after_reset :
    [0x31, 0x104, 0x2504].map afterReset = [some .emptyData, some .emptyData, some .emptyData] ∧
    [0x00003, 0x10003, 0x20003, 0x30003, 0x40003, 0x50003, 0x60003, 0x70003, 0x80003, 0x90003].map afterReset =
      [.invalidKeySize, .invalidBlockSize, .invalidIvSize, .invalidIvSize, .invalidCiphertext, .invalidNonceSize,
       .invalidNonceSize, .invalidTagSize, .ok, .emptyData].map some := by decide +kernel

/-! ### Bus accesses (10_state.md, 20_memory.md, 70_reset_and_hazards.md) -/

/-- One access to a machine at bus address 0: the reply and the state after. -/
def access (s : State) (off : Nat) (w : Width) (k : AccessKind) : Option (Reply × State) :=
  match step { s with turns := [.host ⟨off, w, k⟩] } with
  | .next t => t.reply.map fun r => (r, { t with reply := none })
  | _ => none

/-- 95_test_vectors.md section 3.7: STATUS after a success, after a failure with code 6, and with BUSYWR. -/
theorem test_status_reads :
    (access { machine 64 with done := true } 0x004 .word .read).map Prod.fst = some (.data 0x00000002) ∧
    (access { machine 64 with done := true, err := .invalidData } 0x004 .word .read).map Prod.fst =
      some (.data 0x00000602) ∧
    (access { machine 64 with done := true, busywr := true, err := .capacityExceeded } 0x004 .word .read).map
      Prod.fst = some (.data 0x00000F06) := by decide +kernel

/-- 95_test_vectors.md section 3.7: writing 2 to STATUS clears DONE alone, writing 6 clears BUSYWR too. -/
theorem test_status_writes :
    access { machine 64 with done := true, busywr := true, err := .invalidData } 0x004 .word (.write 2) =
      some (.written, { machine 64 with done := false, busywr := true, err := .invalidData }) ∧
    access { machine 64 with done := true, busywr := true, err := .invalidData } 0x004 .word (.write 6) =
      some (.written, { machine 64 with err := .invalidData }) := by decide +kernel

/-- P5, outcome (b): a write while Busy sets BUSYWR and nothing else. -/
theorem test_write_while_busy :
    access { machine 64 with busy := true, blksz := 8 } 0x00C .word (.write 4) =
      some (.written, { machine 64 with busy := true, blksz := 8, busywr := true }) := by decide +kernel

/-- 10_state.md R23: a CMD write while Idle starts a command and clears DONE. -/
theorem test_cmd_write :
    access { machine 64 with done := true } 0x000 .word (.write 0x31) =
      some (.written, { machine 64 with busy := true, cmd := 0x31 }) := by decide +kernel

/-- 20_memory.md R54, R55, R51: byte order, halves, and a write across BUF_CAP. -/
theorem test_windows :
    (access { machine 64 with mem := [(0x10000000, 0x11), (0x10000001, 0x22), (0x10000002, 0x33),
      (0x10000003, 0x44)] } 0x10000000 .word .read).map Prod.fst = some (.data 0x44332211) ∧
    (access (machine 64) 0x20000002 .half (.write 0xAABB)).map (fun x => x.2.mem) =
      some [(0x20000002, 0xBB), (0x20000003, 0xAA)] ∧
    (access (machine 65) 0x40000040 .word (.write 0xAABBCCDD)).map (fun x => x.2.mem) =
      some [(0x40000040, 0xDD)] ∧
    (access (machine 64) 0x50000000 .word (.write 0xAABBCCDD)).map (fun x => x.2.mem) = some [] ∧
    (access { machine 64 with inLen := 0x1111111122222222 } 0x034 .word (.write 5)).map (fun x => x.2.inLen) =
      some 0x0000000522222222 := by decide +kernel

/-- 20_memory.md R53, R56: a byte access to a register, a misaligned access and a wide one get a bus error. -/
theorem test_bus_errors :
    access (machine 64) 0x004 .byte .read = some (.busError, machine 64) ∧
    access (machine 64) 0x10000002 .word (.write 1) = some (.busError, machine 64) ∧
    access (machine 64) 0x10000000 .wide .read = some (.busError, machine 64) := by decide +kernel

/-- 20_memory.md R56: on a bus with no error response it is a fault. -/
theorem test_bus_fault :
    step { machine 64 with params := ⟨64, 0, false⟩, turns := [.host ⟨0x006, .half, .read⟩] } =
      .fault .hostAccess := rfl

/-- P1, lines 2, 3, 7 and 12, P2 line 2, P3 line 17: the expansions of 30_encoding.md R85. -/
theorem test_expansions :
    (HostAction.load .input (hexB 3 0x414141)).expand 0 =
      [writeAt 0 0x10000000 0x00414141, writeAt 0 0x30 3, writeAt 0 0x34 0] ∧
    (HostAction.issue .padPkcs7).expand 0 = [writeAt 0 0 0x00000031] ∧
    HostAction.ack.expand 0 = [writeAt 0 4 2] ∧ (HostAction.rdbufOut 3).expand 0 = [readAt 0 0x50000000] ∧
    (HostAction.load .iv tcIv).expand 0 =
      [writeAt 0 0x30000000 0xF3F2F1F0, writeAt 0 0x30000004 0xF7F6F5F4, writeAt 0 0x30000008 0xFBFAF9F8,
       writeAt 0 0x3000000C 0xFFFEFDFC, writeAt 0 0x40 0x10, writeAt 0 0x44 0] ∧
    (HostAction.issueWord 6).expand 0 = [writeAt 0 0 6] := by decide +kernel

/-! ### The collaborators' laws -/

/-- TC waits for the decryption of a block after an earlier command encrypted p16, and this answer comes. -/
def tcAsks (q : Request) (a : Answer) : Host.Outcome State Fault Refusal :=
  step { tcIn p16 [] with
    pending    := some ⟨0, q⟩
    transcript := tcEnc [p16]
    turns      := [.collaborator 0 a] }

/-- Is the answer taken? `none` where it is refused. -/
def taken (r : Host.Outcome State Fault Refusal) : Option (List Answered) :=
  match r with
  | .next t => some t.answers
  | _ => none

/-- 42_modes.md R209: `D_K(E_K(x)) = x`, `E_K` is one function across commands, and another key is another
function. -/
theorem test_cipher_laws :
    taken (tcAsks (.decryptBlock tcK (tcE tcK p16)) (.bytes p16)) =
      some [⟨.decryptBlock tcK (tcE tcK p16), .bytes p16⟩] ∧
    taken (tcAsks (.decryptBlock tcK (tcE tcK p16)) (.bytes tcIv)) = none ∧
    taken (tcAsks (.encryptBlock tcK p16) (.bytes tcIv)) = none ∧
    taken (tcAsks (.encryptBlock tcK tcIv) (.bytes (tcE tcK p16))) = none ∧
    taken (tcAsks (.encryptBlock tcIv p16) (.bytes tcIv)) = some [⟨.encryptBlock tcIv p16, .bytes tcIv⟩] := by
  decide +kernel

/-- 42_modes.md R201, R205 (as in vectors G4, G10, G15): what was sealed does not open under another key, nonce,
additional data or tag size, and is no Seal answer there. -/
theorem test_aead_contexts :
    [lawfulAnswer [⟨.sealData 16 z16 n12 z16 [], .bytes g1⟩] (.openData 16 (hexB 16 (2 ^ 120)) n12 g1 []) (.bytes z16),
     lawfulAnswer [⟨.sealData 16 z16 n12 z16 [], .bytes g1⟩] (.openData 16 z16 z16 g1 []) (.bytes z16),
     lawfulAnswer [⟨.sealData 16 z16 n12 z16 [], .bytes g1⟩] (.openData 16 z16 n12 g1 [0]) (.bytes z16),
     lawfulAnswer [⟨.sealData 16 z16 n12 z16 [], .bytes g1⟩] (.openData 13 z16 n12 g1 []) (.bytes (hexB 19 0)),
     lawfulAnswer [⟨.sealData 16 z16 n12 z16 [], .bytes g1⟩] (.sealData 16 z16 n12 z16 [0]) (.bytes g1),
     lawfulAnswer [⟨.openData 16 z16 n12 g1 [], .bytes z16⟩] (.sealData 16 z16 n12 z16 [0]) (.bytes g1)] =
      List.replicate 6 false ∧
    [lawfulAnswer [⟨.sealData 16 z16 n12 z16 [], .bytes g1⟩] (.openData 16 (hexB 16 (2 ^ 120)) n12 g1 []) .fail,
     lawfulAnswer [⟨.sealData 16 z16 n12 z16 [], .bytes g1⟩] (.openData 13 z16 n12 g1 []) .fail] =
      [true, true] := by decide +kernel

/-- 42_modes.md R208, laws 2 and 4, on vector G1: what was sealed opens to its plaintext and to nothing else,
and with a bit flipped it does not open. -/
theorem test_aead_laws :
    lawfulAnswer [⟨.sealData 16 z16 n12 z16 [], .bytes g1⟩] (.openData 16 z16 n12 g1 []) (.bytes z16) = true ∧
    lawfulAnswer [⟨.sealData 16 z16 n12 z16 [], .bytes g1⟩] (.openData 16 z16 n12 g1 []) (.bytes p16) = false ∧
    lawfulAnswer [⟨.sealData 16 z16 n12 z16 [], .bytes g1⟩] (.openData 16 z16 n12 g1 []) .fail = false ∧
    lawfulAnswer [⟨.sealData 16 z16 n12 z16 [], .bytes g1⟩]
      (.openData 16 z16 n12 (hexB 32 0x0388DACE60B6A392F328C2B971B2FE78AB6E47D42CEC13BDF53A67B21257BDDE) [])
      (.bytes z16) = false ∧
    lawfulAnswer [⟨.sealData 16 z16 n12 z16 [], .bytes g1⟩]
      (.openData 16 z16 n12 (hexB 32 0x0388DACE60B6A392F328C2B971B2FE78AB6E47D42CEC13BDF53A67B21257BDDE) [])
      .fail = true := by decide +kernel

/-! ### Witnesses: for each statement, states and operands that meet the hypotheses of each of its clauses -/

/-- The state whose next move is one host access. -/
def hostSt (s : State) (off : Nat) (w : Width) (k : AccessKind) : State :=
  { s with turns := [.host ⟨s.params.base + off, w, k⟩] }

theorem hostSt_next (s : State) {off : Nat} (w : Width) (k : AccessKind) (h : off < 2 ^ 32) :
    (hostSt s off w k).hostNext off w k [] := ⟨h, rfl⟩

/-- A machine of capacity 64 that waits for a filler byte of padIso10126. -/
def waiting : State :=
  { padIn 4 (hexB 2 0x4141) with
    params  := ⟨64, 0, true⟩
    cmd     := 0x71
    pending := some ⟨0, .rngFill 1⟩
    tickets := 1 }

/-- A busy machine with a decoded command and nothing loaded. -/
def busySt : State := { machine 64 with busy := true, cmd := 0x31 }

theorem waiting_inv : Inv waiting where
  params      := by decide
  memWf       := by decide +kernel
  memPlaced   := by decide +kernel
  outFits     := by decide
  outWritten  := fun k hk => absurd hk (Nat.not_lt_zero k)
  idleQuiet   := fun h => absurd h (by decide)
  busyNotDone := fun _ => by decide
  errNoOutput := fun h => absurd rfl h
  okNoPayload := fun _ => by decide
  answersFit  := fun x hx => by simp [waiting, padIn, loaded, machine, State.reset] at hx
  ticketUsed  := fun o ho => by
    have : o = ⟨0, .rngFill 1⟩ := by simpa [waiting] using ho.symm
    subst this; decide
  lawsKept    := fun x hx => by simp [waiting, padIn, loaded, machine, State.reset] at hx
  answersKept := fun x hx => by simp [waiting, padIn, loaded, machine, State.reset] at hx

theorem test_witness_ResetState : ∀ p, Instr.padZero.command ≠ .val p := fun p h => by cases h

theorem test_witness_ResetEvent : ∃ s : State, s.turns = .reset :: [] := ⟨{ waiting with turns := [.reset] }, rfl⟩

theorem test_witness_AbandonedAnswerIgnored : ∃ (s u : State) (o : Outstanding) (ts us : List Turn) (n : Nat)
    (a : Answer), Inv s ∧ s.pending = some o ∧ s.turns = .reset :: ts ∧
      Host.Core.run Sys2Proof.core (n + 1) s = .next u ∧ u.turns = .collaborator o.ticket a :: us :=
  ⟨{ waiting with turns := [.reset, .sequencer, .collaborator 0 (.bytes [0xAA])] }, _, ⟨0, .rngFill 1⟩, _, [], 1, _,
    { waiting_inv with }, rfl, rfl, rfl, rfl⟩

theorem test_witness_StepRunsDecodedCommand :
    (∃ (s : State) (i : Instr) (ts : List Turn), s.sequencerNext ts ∧ s.busy = true ∧ decode s.cmd = .ok i) ∧
    (∃ (s : State) (i : Instr), s.sequencerNext [] ∧ s.turns = [] ∧ s.busy = true ∧ decode s.cmd = .ok i) ∧
    (∃ (s : State) (ts : List Turn), s.sequencerNext ts ∧ s.busy = false) :=
  ⟨⟨{ busySt with turns := [.sequencer, .reset] }, .padPkcs7, [.reset], .inl rfl, rfl, rfl⟩,
    ⟨busySt, .padPkcs7, .inr ⟨rfl, rfl⟩, rfl, rfl, rfl⟩, ⟨machine 64, [], .inr ⟨rfl, rfl⟩, rfl⟩⟩

theorem test_witness_IllegalWordFails : ∃ (s : State) (ts : List Turn), s.sequencerNext ts ∧ s.busy = true ∧
    ¬ legalWord s.cmd :=
  ⟨{ busySt with cmd := 0x000A0003 }, [], .inr ⟨rfl, rfl⟩, rfl, by unfold legalWord; decide⟩

theorem test_witness_CmdWriteAccepted :
    (∃ (s : State) (w : Word), s.busy = false ∧ s.hostNext 0x000 .word (.write w) []) ∧
    (∃ (s : State) (w : Word), s.busy = true ∧ s.hostNext 0x000 .word (.write w) []) ∧
    (∃ s : State, s.hostNext 0x000 .word .read []) :=
  ⟨⟨_, _, rfl, hostSt_next (machine 64) .word (.write 0x31) (by decide)⟩,
    ⟨_, _, rfl, hostSt_next busySt .word (.write 0x31) (by decide)⟩,
    ⟨_, hostSt_next busySt .word .read (by decide)⟩⟩

theorem test_witness_BusyWriteOnlySetsBusywr :
    (∃ (s : State) (v : Word), s.busy = true ∧ s.hostNext 0xFFFFFFFF .byte (.write v) [] ∧
      legalAccess 0xFFFFFFFF .byte) ∧
    (∃ (s : State) (v : Word), s.busy = true ∧ s.hostNext 0x000 .word (.write v) [] ∧ legalAccess 0x000 .word) ∧
    (∃ (s : State) (v : Word), s.busy = true ∧ s.hostNext 0x0FFFFFFF .byte (.write v) [] ∧
      ¬ legalAccess 0x0FFFFFFF .byte ∧ s.params.busErrors = true) :=
  ⟨⟨_, _, rfl, hostSt_next busySt .byte (.write 1) (by decide), by unfold legalAccess; decide⟩,
    ⟨_, _, rfl, hostSt_next busySt .word (.write 1) (by decide), by unfold legalAccess; decide⟩,
    ⟨_, _, rfl, hostSt_next busySt .byte (.write 1) (by decide), by unfold legalAccess; decide, rfl⟩⟩

theorem test_witness_BusyReads :
    (∃ s : State, s.busy = true ∧ s.hostNext 0x04C .word .read [] ∧ legalAccess 0x04C .word ∧
      (0x04C, (0 : Word)) ∈ registerValues s ∧ 0x04C ≠ 0x004 ∧ 0x04C ∉ resultOffsets) ∧
    (∃ s : State, s.busy = true ∧ s.hostNext 0x004 .word .read [] ∧ legalAccess 0x004 .word) ∧
    (∃ s : State, s.busy = true ∧ s.hostNext 0x054 .word .read [] ∧ legalAccess 0x054 .word ∧
      0x054 ∈ resultOffsets) ∧
    (∃ s : State, s.busy = true ∧ s.hostNext 0x1000003E .half .read [] ∧ legalAccess 0x1000003E .half ∧
      1 < Width.bytes .half ∧ 1 ≤ 0x1000003E / 2 ^ 28 ∧ 0x1000003E / 2 ^ 28 ≤ 4) ∧
    (∃ s : State, s.busy = true ∧ s.hostNext 0x50000040 .word .read [] ∧ legalAccess 0x50000040 .word ∧
      0 < Width.bytes .word ∧ 0x50000040 / 2 ^ 28 = 5) ∧
    (∃ s : State, s.busy = true ∧ s.hostNext 0x60000000 .byte .read [] ∧ legalAccess 0x60000000 .byte ∧
      0 < Width.bytes .byte ∧ 6 ≤ 0x60000000 / 2 ^ 28) ∧
    (∃ s : State, s.busy = true ∧ s.hostNext 0xFFFFFFFC .word .read [] ∧ legalAccess 0xFFFFFFFC .word ∧
      3 < Width.bytes .word ∧ 6 ≤ 0xFFFFFFFC / 2 ^ 28) :=
  ⟨⟨_, rfl, hostSt_next busySt .word .read (by decide), by unfold legalAccess; decide, by decide +kernel, by decide,
      by decide⟩,
    ⟨_, rfl, hostSt_next busySt .word .read (by decide), by unfold legalAccess; decide⟩,
    ⟨_, rfl, hostSt_next busySt .word .read (by decide), by unfold legalAccess; decide, by decide⟩,
    ⟨_, rfl, hostSt_next busySt .half .read (by decide), by unfold legalAccess; decide, by decide, by decide, by decide⟩,
    ⟨_, rfl, hostSt_next busySt .word .read (by decide), by unfold legalAccess; decide, by decide, by decide⟩,
    ⟨_, rfl, hostSt_next busySt .byte .read (by decide), by unfold legalAccess; decide, by decide, by decide⟩,
    ⟨_, rfl, hostSt_next busySt .word .read (by decide), by unfold legalAccess; decide, by decide, by decide⟩⟩

theorem test_witness_RegisterReads :
    (∃ s : State, s.busy = false ∧ (0x000, (0x31 : Word)) ∈ registerValues s ∧ s.hostNext 0x000 .word .read []) ∧
    (∃ s : State, s.busy = false ∧ (0x054, (0 : Word)) ∈ registerValues s ∧ s.hostNext 0x054 .word .read []) :=
  ⟨⟨_, rfl, by decide +kernel, hostSt_next { machine 64 with cmd := 0x31 } .word .read (by decide)⟩,
    ⟨_, rfl, by decide +kernel, hostSt_next (machine 64) .word .read (by decide)⟩⟩

theorem test_witness_RegisterWrites :
    (∃ (s t : State) (v : Word), s.busy = false ∧ (0x004, t) ∈ registerWrites s v ∧
      s.hostNext 0x004 .word (.write v) []) ∧
    (∃ (s t : State) (v : Word), s.busy = false ∧ (0x054, t) ∈ registerWrites s v ∧
      s.hostNext 0x054 .word (.write v) []) :=
  ⟨⟨_, _, _, rfl, List.mem_cons_self, hostSt_next (machine 64) .word (.write 6) (by decide)⟩,
    ⟨_, hostSt (machine 64) 0x054 .word (.write 6), _, rfl, by simp [registerWrites],
      hostSt_next (machine 64) .word (.write 6) (by decide)⟩⟩

theorem test_witness_CompletionInterrupt :
    (∃ s t : State, s.busy = true ∧ exec .padPkcs7 s = .next t ∧ t.busy = false) ∧
    (∃ s t : State, s.sequencerNext [] ∧ s.busy = true ∧ ¬ legalWord s.cmd ∧ step s = .next t ∧ t.busy = false) ∧
    (∃ s t : State, step s = .next t ∧ s.done = false ∧ t.done = true) ∧
    (∃ (s : State) (v : Word), s.busy = false ∧ s.hostNext 0x004 .word (.write v) [] ∧ v.getLsbD 1 = true) ∧
    (∃ (s : State) (v : Word), s.busy = false ∧ s.hostNext 0x000 .word (.write v) []) ∧
    (∃ s : State, s.turns = .reset :: []) ∧
    (∃ (s : State) (v : Word), s.busy = false ∧ s.hostNext 0x008 .word (.write v) []) :=
  ⟨⟨busySt, _, rfl, rfl, rfl⟩,
    ⟨{ busySt with cmd := 0x000A0003 }, _, .inr ⟨rfl, rfl⟩, rfl, by unfold legalWord; decide, rfl, rfl⟩,
    ⟨busySt, _, rfl, rfl, rfl⟩,
    ⟨_, _, rfl, hostSt_next (machine 64) .word (.write 2) (by decide), by decide⟩,
    ⟨_, _, rfl, hostSt_next (machine 64) .word (.write 2) (by decide)⟩,
    ⟨{ machine 64 with turns := [.reset] }, rfl⟩,
    ⟨_, _, rfl, hostSt_next (machine 64) .word (.write 1) (by decide)⟩⟩

theorem test_witness_IllegalAccessIsBusError :
    (∃ s : State, s.hostNext 0x0FFFFFFC .half .read [] ∧ ¬ legalAccess 0x0FFFFFFC .half ∧
      s.params.busErrors = true) ∧
    (∃ s : State, s.hostNext 0x10000002 .word .read [] ∧ ¬ legalAccess 0x10000002 .word ∧
      s.params.busErrors = false) :=
  ⟨⟨_, hostSt_next (machine 64) .half .read (by decide), by unfold legalAccess; decide, rfl⟩,
    ⟨_, hostSt_next { machine 64 with params := ⟨64, 0, false⟩ } .word .read (by decide),
      by unfold legalAccess; decide, rfl⟩⟩

theorem test_witness_ReservedRegisterOffsets :
    (∃ s : State, 0x058 ≤ 0x058 ∧ 0x058 < 2 ^ 28 ∧ 0x058 % 4 = 0 ∧ s.busy = true ∧
      s.hostNext 0x058 .word .read []) ∧
    (∃ s : State, 0x058 ≤ 0x0FFFFFFC ∧ 0x0FFFFFFC < 2 ^ 28 ∧ 0x0FFFFFFC % 4 = 0 ∧ s.busy = false ∧
      s.hostNext 0x0FFFFFFC .word .read []) ∧
    (∃ (s : State) (v : Word), 0x058 ≤ 0x0FFFFFFC ∧ 0x0FFFFFFC < 2 ^ 28 ∧ 0x0FFFFFFC % 4 = 0 ∧ s.busy = false ∧
      s.hostNext 0x0FFFFFFC .word (.write v) []) :=
  ⟨⟨_, by decide, by decide, by decide, rfl, hostSt_next busySt .word .read (by decide)⟩,
    ⟨_, by decide, by decide, by decide, rfl, hostSt_next (machine 64) .word .read (by decide)⟩,
    ⟨_, _, by decide, by decide, by decide, rfl, hostSt_next (machine 64) .word (.write 1) (by decide)⟩⟩

theorem test_witness_BufferReads :
    (∃ s : State, s.busy = false ∧ s.hostNext 0x10000000 .word .read [] ∧ legalAccess 0x10000000 .word ∧
      2 ^ 28 ≤ 0x10000000) ∧
    (∃ s : State, s.busy = false ∧ s.hostNext 0x5000003F .byte .read [] ∧ legalAccess 0x5000003F .byte ∧
      2 ^ 28 ≤ 0x5000003F) ∧
    (∃ s : State, s.busy = false ∧ s.hostNext 0xFFFFFFFE .half .read [] ∧ legalAccess 0xFFFFFFFE .half ∧
      2 ^ 28 ≤ 0xFFFFFFFE) :=
  ⟨⟨_, rfl, hostSt_next (machine 64) .word .read (by decide), by unfold legalAccess; decide, by decide⟩,
    ⟨_, rfl, hostSt_next (machine 64) .byte .read (by decide), by unfold legalAccess; decide, by decide⟩,
    ⟨_, rfl, hostSt_next (machine 64) .half .read (by decide), by unfold legalAccess; decide, by decide⟩⟩

theorem test_witness_BufferWrites :
    (∃ (s : State) (v : Word), s.busy = false ∧ s.hostNext 0x4000003C .word (.write v) [] ∧
      legalAccess 0x4000003C .word ∧ 2 ^ 28 ≤ 0x4000003C) ∧
    (∃ (s : State) (v : Word), s.busy = false ∧ s.hostNext 0x50000000 .byte (.write v) [] ∧
      legalAccess 0x50000000 .byte ∧ 2 ^ 28 ≤ 0x50000000) :=
  ⟨⟨_, _, rfl, hostSt_next (machine 64) .word (.write 1) (by decide), by unfold legalAccess; decide, by decide⟩,
    ⟨_, _, rfl, hostSt_next (machine 64) .byte (.write 1) (by decide), by unfold legalAccess; decide, by decide⟩⟩

theorem test_witness_LoadPutsOperand :
    (∃ (s : State) (bytes : Bytes), bytes.length = 64 ∧ s.busy = false ∧ bytes.length ≤ s.params.bufCap ∧
      s.params.bufCap ≤ 2 ^ 28 ∧ s.turns = (HostAction.load .key bytes).turns s.params.base ++ []) ∧
    (∃ s : State, s.busy = false ∧ ([] : Bytes).length ≤ s.params.bufCap ∧ s.params.bufCap ≤ 2 ^ 28 ∧
      s.turns = (HostAction.load .aad []).turns s.params.base ++ [.sequencer]) :=
  ⟨⟨{ machine 64 with turns := (HostAction.load .key (hexB 64 7)).turns 0 }, hexB 64 7, by decide, rfl,
      by decide, by decide, (List.append_nil _).symm⟩,
    ⟨{ machine 64 with turns := (HostAction.load .aad []).turns 0 ++ [.sequencer] }, rfl, by decide, by decide, rfl⟩⟩

theorem test_witness_AnswerTakesEffect :
    (∃ (s : State) (o : Outstanding) (a : Answer), s.pending = some o ∧ s.turns = .collaborator o.ticket a :: [] ∧
      s.ask o.request = none ∧ lawfulAnswer s.transcript o.request a = true) ∧
    (∃ (s : State) (o : Outstanding) (a : Answer), s.pending = some o ∧ s.turns = .collaborator o.ticket a :: [] ∧
      s.ask o.request = none ∧ lawfulAnswer s.transcript o.request a = false) ∧
    (∃ (s : State) (a : Answer), s.turns = .collaborator 1 a :: [] ∧ ∀ o, s.pending = some o → o.ticket ≠ 1) ∧
    (∃ s t : State, step s = .next t ∧ t.transcript ≠ s.transcript) :=
  ⟨⟨{ waiting with turns := [.collaborator 0 (.bytes [0xAA])] }, ⟨0, .rngFill 1⟩, _, rfl, rfl, rfl, rfl⟩,
    ⟨{ waiting with turns := [.collaborator 0 (.bytes [])] }, ⟨0, .rngFill 1⟩, _, rfl, rfl, rfl, rfl⟩,
    ⟨{ waiting with turns := [.collaborator 1 .ok] }, _, rfl, fun o ho => by
      have : o = ⟨0, .rngFill 1⟩ := by simpa [waiting] using ho.symm
      subst this; decide⟩,
    ⟨{ waiting with turns := [.collaborator 0 (.bytes [0xAA])] }, _, rfl, by decide⟩⟩

/-- The clauses of AnswerTakesEffect about the laws: after this answer, these answers keep them. -/
theorem test_witness_AnswerTakesEffect_laws :
    lawfulAnswer [⟨.encryptBlock tcK p16, .bytes z16⟩] (.encryptBlock tcK p16) (.bytes z16) = true ∧
    lawfulAnswer [⟨.encryptBlock tcK p16, .bytes z16⟩] (.decryptBlock tcK z16) (.bytes p16) = true ∧
    lawfulAnswer [⟨.decryptBlock tcK z16, .bytes p16⟩] (.encryptBlock tcK p16) (.bytes z16) = true ∧
    lawfulAnswer [⟨.sealData 12 tcK n12 [1] [], .bytes (hexB 13 4)⟩] (.sealData 12 tcK n12 [1] [])
      (.bytes (hexB 13 4)) = true ∧
    lawfulAnswer [⟨.sealData 12 tcK n12 [1] [], .bytes (hexB 13 4)⟩] (.openData 12 tcK n12 (hexB 13 4) [])
      (.bytes [1]) = true ∧
    oneBitApart (hexB 13 4) (hexB 13 5) = true ∧
    lawfulAnswer [⟨.sealData 12 tcK n12 [1] [], .bytes (hexB 13 4)⟩] (.openData 12 tcK n12 (hexB 13 5) [])
      .fail = true ∧
    lawfulAnswer [⟨.sealData 12 tcK n12 [1] [], .bytes (hexB 13 4)⟩] (.openData 13 tcK n12 (hexB 13 4) [])
      .fail = true ∧
    lawfulAnswer [⟨.openData 12 tcK n12 (hexB 13 4) [], .bytes [1]⟩] (.sealData 12 tcK n12 [1] [])
      (.bytes (hexB 13 4)) = true := by decide +kernel

theorem test_witness_UnansweredRequestKeepsBusy : ∃ (s u : State) (o : Outstanding) (n : Nat), s.busy = true ∧
    s.pending = some o ∧ sequencerStep s = .next s ∧
    (∀ x ∈ s.turns, x ≠ .reset ∧ ∀ a, x ≠ .collaborator o.ticket a) ∧ Host.Core.run Sys2Proof.core n s = .next u :=
  ⟨{ waiting with turns := [.sequencer, .collaborator 5 .fail] }, _, ⟨0, .rngFill 1⟩, 3, rfl, rfl, rfl,
    by simp, rfl⟩

theorem test_witness_OnlyResetInterruptsCommand :
    (∃ s t : State, step s = .next t ∧ s.busy = true ∧ t.busy = false) ∧
    (∃ s t : State, step s = .next t ∧ s.irq = false ∧ t.irq = true ∧ s.busy = true) ∧
    (∃ s t : State, step s = .next t ∧ s.irq = false ∧ t.irq = true ∧ s.busy = false) :=
  ⟨⟨busySt, _, rfl, rfl, rfl⟩, ⟨{ busySt with ie := true }, _, rfl, rfl, rfl, rfl⟩,
    ⟨hostSt { machine 64 with done := true } 0x008 .word (.write 1), _, rfl, rfl, rfl, rfl⟩⟩

theorem test_witness_ResultsChangeOnlyAtCompletion : ∃ s t : State, step s = .next t ∧
    (t.err ≠ s.err ∨ t.errarg ≠ s.errarg ∨ t.outLen ≠ s.outLen ∨ ∃ k, t.outByte k ≠ s.outByte k) :=
  ⟨busySt, _, rfl, .inl (by decide)⟩

theorem test_witness_OperandsChangeOnlyByIdleHostWrites : ∃ s t : State, step s = .next t ∧ t.blksz ≠ s.blksz :=
  ⟨hostSt (machine 64) 0x00C .word (.write 8), _, rfl, by decide⟩

theorem test_witness_CommandEndsOrWaits : busySt.busy = true ∧ waiting.busy = true := ⟨rfl, rfl⟩

theorem test_witness_CommandFrame :
    (∃ t : State, paramsLegal busySt.params ∧ exec .padZero busySt = .next t ∧ t.err ≠ .ok) ∧
    (∃ t : State, paramsLegal (valIn 16 0).params ∧ exec .valKeysize (valIn 16 0) = .next t ∧
      Instr.valKeysize.command = .val .keysize) ∧
    (∃ t : State, paramsLegal waiting.params ∧ exec .padIso10126 waiting = .next t ∧ waiting.busy = true ∧
      t.busy = true) :=
  ⟨⟨_, by decide, rfl, by decide⟩, ⟨_, by decide, rfl, rfl⟩, ⟨_, by decide, rfl, rfl, rfl⟩⟩

theorem test_witness_SuccessEffect :
    (paramsLegal busySt.params ∧ (hexB 64 7).length ≤ busySt.params.bufCap) ∧
    (∃ b k, b ≠ Buf.output ∧ k < 2 ^ 28 ∧ Buf.base b + k = 0x10000000) ∧
    (∃ t : State, (valIn 16 0).busy = true ∧ exec .valKeysize (valIn 16 0) = .next t ∧ t.busy = false ∧
      t.err = .ok) :=
  ⟨⟨by decide, by decide⟩, ⟨.input, 0, by decide, by decide, rfl⟩, ⟨_, rfl, rfl, rfl, rfl⟩⟩

theorem test_witness_FailureEffect :
    2 ^ 64 - 1 < 2 ^ 64 ∧
    ∃ t : State, busySt.busy = true ∧ exec .padZero busySt = .next t ∧ t.busy = false ∧ t.err ≠ .ok :=
  ⟨by decide, _, rfl, rfl, rfl, by decide⟩

/-- Every scheme, at a length that fills the capacity; ISO10126 with an empty filler. -/
theorem test_witness_PadAppendsTrailer :
    ([.zero, .bit, .pkcs7, .pkcs5, .x923, .iso7816, .iso10126].all fun k =>
      let s := padLen 8 63
      decide (s.inLen.toNat ≠ 0) && decide (padSize k s ≠ 0) &&
        decide (s.inLen.toNat + padOvh k s = s.params.bufCap) && decide (padOvh k s = 1)) = true := by decide

theorem test_witness_PadFillsAtRandom :
    (∀ s ∈ [waiting, answered waiting [⟨.rngFill 1, .bytes [0xAA]⟩], answered waiting [⟨.rngFill 1, .fail⟩]],
      s.inLen.toNat ≠ 0 ∧ padSize .iso10126 s ≠ 0 ∧ s.inLen.toNat + padOvh .iso10126 s ≤ s.params.bufCap ∧
      padOvh .iso10126 s = 2) ∧
    (answered waiting [⟨.rngFill 1, .bytes [0xAA]⟩]).ask (.rngFill 1) = some (.bytes [0xAA]) ∧
    (answered waiting [⟨.rngFill 1, .fail⟩]).ask (.rngFill 1) = some .fail ∧
    waiting.ask (.rngFill 1) = none := by decide +kernel

theorem test_witness_PadErrors :
    paramsLegal (padLen 8 0).params ∧ (padLen 8 0).inLen.toNat = 0 ∧ (padLen 0 1).inLen.toNat ≠ 0 ∧
    padSize .zero (padLen 0 1) = 0 ∧ (padLen 8 65).inLen.toNat ≠ 0 ∧ padSize .pkcs5 (padLen 8 65) ≠ 0 ∧
    (padLen 8 65).params.bufCap < (padLen 8 65).inLen.toNat ∧ padSize .bit (padLen 8 57) ≠ 0 ∧
    (padLen 255 57).inLen.toNat ≠ 0 ∧ (padLen 255 57).inLen.toNat ≤ (padLen 255 57).params.bufCap ∧
    (padLen 255 57).params.bufCap < (padLen 255 57).inLen.toNat + padOvh .bit (padLen 255 57) := by decide

theorem test_witness_PadLengths : ∃ t : State, paramsLegal (padIn 8 (hexB 3 0x414141)).params ∧
    (padIn 8 (hexB 3 0x414141)).busy = true ∧
    exec (Command.pad .pkcs7).instr (padIn 8 (hexB 3 0x414141)) = .next t ∧ t.busy = false ∧ t.err = .ok :=
  ⟨_, by decide, rfl, rfl, rfl, rfl⟩

theorem test_witness_UnpadZeroAndBit :
    (∀ m ∈ [0, 4], ∃ s : State, m ≤ s.inLen.toNat ∧
      (∀ j, m ≤ j → j < s.inLen.toNat → s.inBytes.getD j 0 = 0x00) ∧
      (m = 0 ∨ s.inBytes.getD (m - 1) 0 ≠ 0x00) ∧ (m = 4 → s.inBytes.getD (m - 1) 0 = 0x80) ∧
      unpadReady .zero s ∧ unpadReady .bit s) ∧
    (∃ s : State, 3 ≤ s.inLen.toNat ∧ (∀ j, 3 ≤ j → j < s.inLen.toNat → s.inBytes.getD j 0 = 0x00) ∧
      s.inBytes.getD 2 0 ≠ 0x00 ∧ s.inBytes.getD 2 0 ≠ 0x80 ∧ unpadReady .bit s) := by
  refine ⟨fun m hm => ?_, padIn 8 (hexB 8 0x4141410000000000), by decide, ?_, by decide +kernel, by decide +kernel,
    by unfold unpadReady; decide⟩
  · rcases List.mem_cons.1 hm with rfl | hm
    · refine ⟨padIn 8 (hexB 8 0), by decide, ?_, .inl rfl, by decide, by unfold unpadReady; decide,
        by unfold unpadReady; decide⟩
      have : ∀ j : Fin 8, (padIn 8 (hexB 8 0)).inBytes.getD j 0 = 0x00 := by decide +kernel
      exact fun j _ h => this ⟨j, h⟩
    · obtain rfl : m = 4 := by simpa using hm
      refine ⟨padIn 8 (hexB 8 0x4141418000000000), by decide, ?_, .inr (by decide +kernel), fun _ => by decide +kernel,
        by unfold unpadReady; decide, by unfold unpadReady; decide⟩
      have : ∀ j : Fin 8, 4 ≤ j.val → (padIn 8 (hexB 8 0x4141418000000000)).inBytes.getD j 0 = 0x00 := by
        decide +kernel
      exact fun j h1 h => this ⟨j, h⟩ h1
  · have : ∀ j : Fin 8, 3 ≤ j.val → (padIn 8 (hexB 8 0x4141410000000000)).inBytes.getD j 0 = 0x00 := by
      decide +kernel
    exact fun j h1 h => this ⟨j, h⟩ h1

/-- What the clauses of UnpadCounted ask of the last byte and of the bytes before it. -/
theorem test_witness_UnpadCounted :
    (∀ k ∈ [Scheme.pkcs7, .pkcs5, .x923], ∀ v ∈ [0x4141410505050505, 0x4141410505050500, 0x4141410505050509,
      0x0000000000000005, 0x0000000000000001, 0x4141410000010005], unpadReady k (padIn 8 (hexB 8 v))) ∧
    ((padIn 8 (hexB 8 0x4141410505050505)).inBytes.getD 7 0).toNat = 5 ∧
    (∀ j : Fin 8, 3 ≤ j.val → ((padIn 8 (hexB 8 0x4141410505050505)).inBytes.getD j 0).toNat = 5) ∧
    ((padIn 8 (hexB 8 0x4141410505050500)).inBytes.getD 7 0).toNat = 0 ∧
    ((padIn 8 (hexB 8 0x4141410505050509)).inBytes.getD 7 0).toNat = 9 ∧
    (∀ j : Fin 8, 3 ≤ j.val → j.val < 7 → (padIn 8 (hexB 8 0x0000000000000005)).inBytes.getD j 0 = 0x00) ∧
    ((padIn 8 (hexB 8 0x4141410000010005)).inBytes.getD 5 0) ≠ 0x00 := by
  refine ⟨by unfold unpadReady; decide, ?_⟩
  decide +kernel

theorem test_witness_UnpadIso :
    unpadReady .iso7816 (padIn 8 (hexB 8 0x4141418000000100)) ∧
    unpadReady .iso7816 (padIn 8 (hexB 8 0x4141414141414141)) ∧
    (padIn 8 (hexB 8 0x4141418000000100)).inBytes.getD 3 0 = 0x80 ∧
    (∀ j : Fin 8, 3 < j.val → (padIn 8 (hexB 8 0x4141418000000100)).inBytes.getD j 0 ≠ 0x80) ∧
    (∀ j : Fin 8, (padIn 8 (hexB 8 0x4141414141414141)).inBytes.getD j 0 ≠ 0x80) ∧
    unpadReady .iso10126 (padIn 8 (hexB 8 0x4141414141414108)) ∧
    ((padIn 8 (hexB 8 0x4141414141414108)).inBytes.getD 7 0).toNat = 8 ∧
    unpadReady .iso10126 (padIn 8 (hexB 8 0x4141414141414109)) ∧
    ((padIn 8 (hexB 8 0x4141414141414109)).inBytes.getD 7 0).toNat = 9 := by
  unfold unpadReady; decide +kernel

theorem test_witness_UnpadErrors :
    (padLen 8 0).inLen.toNat = 0 ∧ (padLen 0 1).inLen.toNat ≠ 0 ∧ padSize .zero (padLen 0 1) = 0 ∧
    (padLen 8 7).inLen.toNat ≠ 0 ∧ padSize .pkcs5 (padLen 8 7) ≠ 0 ∧
    (padLen 8 7).inLen.toNat % padSize .pkcs5 (padLen 8 7) ≠ 0 ∧ (padLen 8 72).inLen.toNat ≠ 0 ∧
    padSize .bit (padLen 8 72) ≠ 0 ∧ (padLen 8 72).inLen.toNat % padSize .bit (padLen 8 72) = 0 ∧
    (padLen 8 72).params.bufCap < (padLen 8 72).inLen.toNat := by decide

theorem test_witness_PaddingRoundTrip :
    (∀ b ∈ [1, 8, 255], ∃ d r : Bytes, 1 ≤ b ∧ b ≤ 255 ∧ d ≠ [] ∧ r.length = b - d.length % b - 1 ∧
      d.getLast? = some 0x00) ∧
    (∃ s t u v : State, paramsLegal s.params ∧ s.busy = true ∧ exec (Command.pad .zero).instr s = .next t ∧
      t.busy = false ∧ t.err = .ok ∧ u.params = s.params ∧ u.blksz = s.blksz ∧ u.inBytes = t.outBytes ∧
      s.inBytes.getLast? ≠ some 0x00 ∧ exec (Command.unpad .zero).instr u = .next v) := by
  refine ⟨fun b hb => ⟨[0x00], List.replicate (b - 1 % b - 1) 0, ?_⟩,
    padIn 4 (hexB 3 0x414141), _, padIn 4 (hexB 4 0x41414100), _, by decide, rfl, rfl, rfl, rfl, rfl, rfl,
    by decide +kernel, by decide +kernel, rfl⟩
  have : b = 1 ∨ b = 8 ∨ b = 255 := by simpa using hb
  rcases this with rfl | rfl | rfl <;>
    exact ⟨by decide, by decide, by decide, List.length_replicate, by decide⟩

theorem test_witness_CorruptionAcceptance :
    ∀ k : Scheme, (0x03 : Byte) ≠ (trailerBytes k 5 [0xAA, 0xAA, 0xAA, 0xAA]).getD 4 0 := by
  intro k; cases k <;> decide

theorem test_witness_ValTwoOperands :
    ¬ isAesSize (valIn 15 16).arg0.toNat ∧ isAesSize (valIn 16 8).arg0.toNat ∧ ¬ isAesSize (valIn 16 8).arg1.toNat ∧
    isAesSize (valIn 32 24).arg0.toNat ∧ isAesSize (valIn 32 24).arg1.toNat ∧ (valIn 32 24).arg0 ≠ (valIn 32 24).arg1 ∧
    isAesSize (valIn 24 24).arg0.toNat ∧ (valIn 24 24).arg0 = (valIn 24 24).arg1 := by decide

theorem test_witness_BlockSplit : ∃ p : Bytes, p ≠ [] ∧ p.length % 16 = 0 ∧ 0 + 1 < (blocks p).length :=
  ⟨p32, by decide +kernel, by decide, by decide +kernel⟩

/-- The last block of a short input: the hypotheses of EcbCbcTransforms, CfbTransform, OfbTransform. -/
theorem test_witness_Transforms : ∃ p : Bytes, 1 < (blocks p).length ∧ p.length = 17 :=
  ⟨hexB 17 5, by decide +kernel, by decide⟩

theorem test_witness_CtrTransform : ∃ (x iv p : Bytes), x.length = 16 ∧ iv.length = 16 ∧ 1 < (blocks p).length :=
  ⟨tcIv, hexB 16 (2 ^ 128 - 1), hexB 17 5, by decide, by decide, by decide +kernel⟩

/-- What the claims about ENC ask of a state at the capacity. -/
theorem test_witness_EncCompletes : ∃ (s : State) (E : Bytes → Bytes) (r : Bytes), paramsLegal s.params ∧
    modeReady .cbc s ∧ (s.inLen.toNat + modeOvh (some .iso10126) s.inLen.toNat) % 16 = 0 ∧
    s.inLen.toNat + modeOvh (some .iso10126) s.inLen.toNat = s.params.bufCap ∧
    s.ask (.rngFill (modeOvh (some .iso10126) s.inLen.toNat - 1)) = some (.bytes r) ∧
    (∀ x ∈ encCalls .cbc E s.ivBytes (modeInput (some .iso10126) s r),
      s.ask (.encryptBlock s.keyBytes x.input) = some (.bytes (E x.input))) := by
  refine ⟨answered (loaded 64 (hexB 62 5) tcK tcIv []) (tcEnc ((encCalls .cbc (tcE tcK) tcIv
    (hexB 62 5 ++ [0xAA, 0x02])).map BlockCall.input) ++ [rngAns 1]), tcE tcK, [0xAA], by decide, ?_,
    by decide, by decide, by decide +kernel, by decide +kernel⟩
  unfold modeReady modeValid
  decide +kernel

theorem test_witness_DecCompletes : ∃ (s : State) (F : Bytes → Bytes), paramsLegal s.params ∧ modeReady .cbc s ∧
    s.inLen.toNat % 16 = 0 ∧ s.inLen.toNat ≤ s.params.bufCap ∧
    (∀ x ∈ decCalls .cbc F s.ivBytes s.inBytes,
      s.ask (decBlockRequest .cbc s.keyBytes x.input) = some (.bytes (F x.input))) ∧
    s.inLen.toNat % modePadSize .zero = 0 ∧
    (strip .zero (joined (decCalls .cbc F s.ivBytes s.inBytes)) (modePadSize .zero)).isSome = true ∧
    strip .pkcs7 (joined (decCalls .cbc F s.ivBytes s.inBytes)) (modePadSize .pkcs7) = none := by
  refine ⟨tcIn (hexB 16 0) (tcDec [hexB 16 0]), tcD tcK, by decide, ?_, by decide, by decide, by decide +kernel,
    by decide, by decide +kernel, by decide +kernel⟩
  unfold modeReady modeValid
  decide +kernel

/-- The clause of DecCompletes about a length that is no multiple of the padding block size. -/
theorem test_witness_DecCompletes_misaligned : ∃ (s : State) (F : Bytes → Bytes), paramsLegal s.params ∧
    modeReady .cfb s ∧ s.inLen.toNat ≤ s.params.bufCap ∧
    (∀ x ∈ decCalls .cfb F s.ivBytes s.inBytes,
      s.ask (decBlockRequest .cfb s.keyBytes x.input) = some (.bytes (F x.input))) ∧
    s.inLen.toNat % modePadSize .pkcs7 ≠ 0 := by
  refine ⟨tcIn (hexB 5 0) (tcEnc [tcIv]), tcE tcK, by decide, ?_, by decide, by decide +kernel, by decide⟩
  unfold modeReady modeValid
  decide +kernel

theorem test_witness_EncErrors :
    (modeLen 64 0 16).inLen.toNat = 0 ∧ paramsLegal (modeLen 64 0 16).params ∧
    ¬ isAesSize { modeLen 64 1 16 with keyLen := 15 }.keyLen.toNat ∧ isAesSize (modeLen 64 1 15).keyLen.toNat ∧
    ¬ isAesSize (modeLen 64 1 15).ivLen.toNat ∧ (modeLen 64 1 32).ivLen.toNat = 32 ∧
    modeValid .cbc (modeLen 64 1 16) ∧ modeReady .cbc (modeLen 64 1 16) ∧
    (answered (modeLen 64 1 16) []).ask (.cipherInit (modeLen 64 1 16).keyBytes) = none ∧
    (answered (modeLen 64 1 16) [⟨.cipherInit tcK, .fail⟩]).ask (.cipherInit (modeLen 64 1 16).keyBytes) =
      some .fail ∧
    ((modeLen 64 1 16).inLen.toNat + modeOvh (some .pkcs5) (modeLen 64 1 16).inLen.toNat) % 16 ≠ 0 ∧
    modeReady .ecb (modeLen 64 80 16) ∧ (modeLen 64 80 16).params.bufCap < (modeLen 64 80 16).inLen.toNat ∧
    modeReady .ecb (modeLen 64 64 16) ∧ (modeLen 64 64 16).inLen.toNat = (modeLen 64 64 16).params.bufCap ∧
    (modeLen 64 64 16).params.bufCap <
      (modeLen 64 64 16).inLen.toNat + modeOvh (some .zero) (modeLen 64 64 16).inLen.toNat := by
  refine ⟨?_, ?_, ?_, ?_, ?_, ?_, ?_, ?_, ?_, ?_, ?_, ?_, ?_, ?_, ?_, ?_⟩ <;>
    first | decide | (unfold modeReady modeValid; decide +kernel) | (unfold modeValid; decide +kernel)

/-- The clause of EncErrors about the randomness source, and the first clause of RequestsInOrder. -/
theorem test_witness_EncErrors_entropy : ∃ s s' : State, modeReady .ecb s ∧ modeReady .ecb s' ∧
    s.inLen.toNat + modeOvh (some .iso10126) s.inLen.toNat = s.params.bufCap ∧
    s'.inLen.toNat + modeOvh (some .iso10126) s'.inLen.toNat = s'.params.bufCap ∧
    modeOvh (some .iso10126) s.inLen.toNat = 2 ∧ modeOvh (some .iso10126) s'.inLen.toNat = 2 ∧
    s.ask (.rngFill 1) = some .fail ∧ s'.ask (.rngFill 1) = none := by
  refine ⟨answered (modeLen 64 62 0) (tcEnc [] ++ [⟨.rngFill 1, .fail⟩]), modeLen 64 62 0, ?_, ?_, ?_⟩
  · unfold modeReady modeValid; decide +kernel
  · unfold modeReady modeValid; decide +kernel
  · decide +kernel

theorem test_witness_DecErrors :
    (modeLen 64 0 16).inLen.toNat = 0 ∧ modeReady .ecb (modeLen 64 17 16) ∧
    (modeLen 64 17 16).inLen.toNat % 16 ≠ 0 ∧ modeReady .ctr (modeLen 64 65 16) ∧
    (modeLen 64 65 16).params.bufCap < (modeLen 64 65 16).inLen.toNat := by
  refine ⟨by decide, ?_, by decide, ?_, by decide⟩ <;> unfold modeReady modeValid <;> decide +kernel

theorem test_witness_RequestsInOrder :
    (∃ (s : State) (pre post : List BlockCall) (x : BlockCall), paramsLegal s.params ∧ modeReady .ecb s ∧
      (s.inLen.toNat + modeOvh none s.inLen.toNat) % 16 = 0 ∧
      s.inLen.toNat + modeOvh none s.inLen.toNat ≤ s.params.bufCap ∧
      encCalls .ecb (tcE tcK) s.ivBytes (modeInput none s []) = pre ++ x :: post ∧ pre ≠ [] ∧
      (∀ y ∈ pre, s.ask (.encryptBlock s.keyBytes y.input) = some (.bytes (tcE tcK y.input))) ∧
      s.ask (.encryptBlock s.keyBytes x.input) = none) ∧
    (∃ (s : State) (pre post : List BlockCall) (x : BlockCall), modeReady .ecb s ∧ s.inLen.toNat % 16 = 0 ∧
      s.inLen.toNat ≤ s.params.bufCap ∧ decCalls .ecb (tcD tcK) s.ivBytes s.inBytes = pre ++ x :: post ∧
      pre ≠ [] ∧
      (∀ y ∈ pre, s.ask (decBlockRequest .ecb s.keyBytes y.input) = some (.bytes (tcD tcK y.input))) ∧
      s.ask (decBlockRequest .ecb s.keyBytes x.input) = none) := by
  refine ⟨⟨tcIn p32 (tcEnc [p16]), [⟨p16, tcE tcK p16⟩], [], ⟨p32.drop 16, tcE tcK (p32.drop 16)⟩, by decide, ?_,
      by decide, by decide, by decide +kernel, by decide, by decide +kernel, by decide +kernel⟩,
    ⟨tcIn p32 (tcDec [p16]), [⟨p16, tcD tcK p16⟩], [], ⟨p32.drop 16, tcD tcK (p32.drop 16)⟩, ?_,
      by decide, by decide, by decide +kernel, by decide, by decide +kernel, by decide +kernel⟩⟩ <;>
  unfold modeReady modeValid <;> decide +kernel

/-- A busy machine whose fields a decision procedure can check meets the invariant. -/
theorem inv_of {s : State} (hb : s.busy = true) (hd : s.done = false) (hp : s.pending = none) (ho : s.outLen = 0)
    (he : s.err = .ok) (ha : s.errarg = 0)
    (h : paramsLegal s.params ∧ s.mem.wf = true ∧
      (∀ c ∈ s.mem, 1 ≤ regionOf c.1 ∧ regionOf c.1 ≤ 5 ∧ withinRegion c.1 < s.params.bufCap) ∧
      (∀ x ∈ s.answers, x.request.fits x.answer = true) ∧
      (∀ x ∈ s.transcript, x.request.fits x.answer = true ∧ ∀ y ∈ s.transcript, x.agrees y = true) ∧
      ∀ x ∈ s.answers, x ∈ s.transcript) : Inv s where
  params      := h.1
  memWf       := h.2.1
  memPlaced   := h.2.2.1
  outFits     := by rw [ho]; exact Nat.zero_le _
  outWritten  := fun k hk => by rw [ho] at hk; exact absurd hk (Nat.not_lt_zero k)
  idleQuiet   := fun hi => by rw [hb] at hi; cases hi
  busyNotDone := fun _ => hd
  errNoOutput := fun hn => absurd he hn
  okNoPayload := fun _ => ha
  answersFit  := h.2.2.2.1
  ticketUsed  := fun o h' => by rw [hp] at h'; cases h'
  lawsKept    := h.2.2.2.2.1
  answersKept := h.2.2.2.2.2

/-- The state after the answers `before` of earlier commands and its own. -/
def afterAnswers (before : List Answered) (s : State) : State := { s with transcript := before ++ s.answers }

theorem test_witness_ModeRoundTrip : ∃ s t u v : State, Inv u ∧ (∀ x ∈ s.answers, x ∈ u.transcript) ∧
    s.busy = true ∧ u.busy = true ∧
    exec (Command.enc .ecb (some .zero)).instr s = .next t ∧ t.busy = false ∧ t.err = .ok ∧ u.params = s.params ∧
    u.inBytes = t.outBytes ∧ u.keyBytes = s.keyBytes ∧ u.ask (.cipherInit u.keyBytes) = some .ok ∧
    s.inBytes.getLast? ≠ some 0x00 ∧ exec (Command.dec .ecb (some .zero)).instr u = .next v ∧ v.busy = false := by
  refine ⟨tcIn (hexB 15 5) (tcEnc [hexB 15 5 ++ [0]]), _,
    afterAnswers (tcEnc [hexB 15 5 ++ [0]]) (tcIn (tcE tcK (hexB 15 5 ++ [0])) (tcDec [tcE tcK (hexB 15 5 ++ [0])])), _,
    inv_of rfl rfl rfl rfl rfl rfl ?_, ?_, rfl, rfl, rfl, ?_, ?_, rfl, ?_, ?_, ?_, ?_, rfl, ?_⟩ <;> decide +kernel

/-- The operands of a GCM command: `n` bytes of input, 12 of nonce, 4 of additional data. -/
def gcmFull (n : Nat) (l : List Answered) : State :=
  answered (loaded 64 (hexB n 0) z16 n12 (hexB 4 0)) (gcmAns z16 12 16 l)

theorem test_witness_GcmEncCompletes : ∃ (s : State) (y : Bytes), paramsLegal s.params ∧ gcmReady .std s ∧ gcmFits s ∧
    s.inLen.toNat + gcmTag .std s = s.params.bufCap ∧
    s.ask (.sealData (gcmTag .std s) s.keyBytes s.ivBytes s.inBytes s.aadBytes) = some (.bytes y) := by
  refine ⟨gcmFull 48 [⟨.sealData 16 z16 n12 (hexB 48 0) (hexB 4 0), .bytes (hexB 64 9)⟩], hexB 64 9, by decide, ?_, ?_,
    by decide, by decide +kernel⟩
  · unfold gcmReady gcmValid nonceOk; decide +kernel
  · unfold gcmFits; decide

theorem test_witness_GcmDecCompletes : ∃ (s : State) (p : Bytes), paramsLegal s.params ∧ gcmReady .std s ∧ gcmFits s ∧
    gcmTag .std s = s.inLen.toNat ∧
    s.ask (.openData (gcmTag .std s) s.keyBytes s.ivBytes s.inBytes s.aadBytes) = some (.bytes p) := by
  refine ⟨gcmFull 16 [⟨.openData 16 z16 n12 (hexB 16 0) (hexB 4 0), .bytes []⟩], [], by decide, ?_, ?_, by decide,
    by decide +kernel⟩
  · unfold gcmReady gcmValid nonceOk; decide +kernel
  · unfold gcmFits; decide

/-- A Seal answer of `gcmFull 16`, and the bytes with their last bit flipped. -/
def gcmRes : Bytes := hexB 32 8
def gcmBad : Bytes := hexB 32 9

/-- DEC.GCM of `inp` with tag size `t` and additional data `aad` after that Seal, Open answered `r`. -/
def gcmSealed (t : Nat) (aad inp : Bytes) (r : Answer) : State :=
  { afterAnswers [⟨.sealData 16 z16 n12 (hexB 16 0) (hexB 4 0), .bytes gcmRes⟩, ⟨.cipherInit z16, .ok⟩,
      ⟨.aeadInit 12 16, .ok⟩] (answered (loaded 64 inp z16 n12 aad)
        (gcmAns z16 12 t [⟨.openData t z16 n12 inp aad, r⟩])) with
    tagsz := BitVec.ofNat 8 t }

/-- What GcmRoundTrip asks of DEC.GCM.v' on `u`, ending in a state `w`, after ENC.GCM.STD on `s`. -/
def decAfter (s : State) (v' : GVar) (u : State) : Prop :=
  Inv u ∧ (∀ x ∈ s.answers, x ∈ u.transcript) ∧ u.busy = true ∧ u.params = s.params ∧ gcmReady v' u ∧
    ∃ w, exec (Command.decGcm v').instr u = .next w ∧ w.busy = false

/-- The state of ENC.GCM.STD whose Seal is answered with `gcmRes`. -/
def gcmSeals : State := gcmFull 16 [⟨.sealData 16 z16 n12 (hexB 16 0) (hexB 4 0), .bytes gcmRes⟩]

theorem test_witness_GcmRoundTrip_seal : ∃ t : State, gcmSeals.busy = true ∧
    exec (Command.encGcm .std).instr gcmSeals = .next t ∧ t.busy = false ∧ t.err = .ok ∧ t.outBytes = gcmRes :=
  ⟨_, rfl, rfl, by decide +kernel, by decide +kernel, by decide +kernel⟩

/-- The clause about the same input and context. -/
theorem test_witness_GcmRoundTrip_same : ∃ u : State, decAfter gcmSeals .std u ∧ sameContext .std gcmSeals .std u ∧
    u.inBytes = gcmRes := by
  refine ⟨gcmSealed 16 (hexB 4 0) gcmRes (.bytes (hexB 16 0)), ⟨inv_of rfl rfl rfl rfl rfl rfl ?_, ?_, rfl, rfl, ?_,
    _, rfl, ?_⟩, ?_, ?_⟩ <;> (try unfold gcmReady) <;> (try unfold gcmValid) <;> (try unfold nonceOk) <;>
    (try unfold sameContext) <;> decide +kernel

/-- The clause about a flipped bit, with another command of the same context. -/
theorem test_witness_GcmRoundTrip_flipped : ∃ u : State, decAfter gcmSeals .nonce u ∧
    sameContext .std gcmSeals .nonce u ∧ oneBitApart gcmRes u.inBytes = true := by
  refine ⟨gcmSealed 16 (hexB 4 0) gcmBad .fail, ⟨inv_of rfl rfl rfl rfl rfl rfl ?_, ?_, rfl, rfl, ?_,
    _, rfl, ?_⟩, ?_, ?_⟩ <;> (try unfold gcmReady) <;> (try unfold gcmValid) <;> (try unfold nonceOk) <;>
    (try unfold sameContext) <;> decide +kernel

/-- The clause about another context: another tag size on the same bytes, other additional data on flipped
ones. -/
theorem test_witness_GcmRoundTrip_elsewhere :
    (∃ u : State, decAfter gcmSeals .tag u ∧ ¬ sameContext .std gcmSeals .tag u ∧ gcmFits u ∧ u.inBytes = gcmRes) ∧
    (∃ u : State, decAfter gcmSeals .std u ∧ ¬ sameContext .std gcmSeals .std u ∧ gcmFits u ∧
      oneBitApart gcmRes u.inBytes = true) := by
  refine ⟨⟨gcmSealed 12 (hexB 4 0) gcmRes .fail, ⟨inv_of rfl rfl rfl rfl rfl rfl ?_, ?_, rfl, rfl, ?_, _, rfl, ?_⟩, ?_,
      ?_, ?_⟩,
    ⟨gcmSealed 16 [] gcmBad .fail, ⟨inv_of rfl rfl rfl rfl rfl rfl ?_, ?_, rfl, rfl, ?_, _, rfl, ?_⟩, ?_, ?_, ?_⟩⟩ <;>
    (try unfold gcmReady) <;> (try unfold gcmValid) <;> (try unfold nonceOk) <;> (try unfold sameContext) <;>
    (try unfold gcmFits) <;> decide +kernel

theorem test_witness_GcmErrors :
    (gcmLen 64 0 12 0 0 16).inLen.toNat = 0 ∧ ¬ isAesSize { gcmLen 64 1 12 0 0 16 with keyLen := 15 }.keyLen.toNat ∧
    ¬ nonceOk .std (gcmLen 64 1 13 0 0 16).ivLen.toNat ∧ ¬ nonceOk .nonce (gcmLen 64 1 0 0 0 16).ivLen.toNat ∧
    gcmTag .tag (gcmLen 64 1 12 0 11 16) < 12 ∧ 16 < gcmTag .tag (gcmLen 64 1 12 0 17 16) ∧
    gcmReady .tag (gcmLen 64 68719476705 12 0 12 12) ∧
    68719476704 < (gcmLen 64 68719476705 12 0 12 12).inLen.toNat ∧
    gcmReady .std (gcmLen 64 68719476721 12 0 0 16) ∧
    68719476704 < (gcmLen 64 68719476721 12 0 0 16).inLen.toNat - gcmTag .std (gcmLen 64 68719476721 12 0 0 16) ∧
    gcmReady .std (gcmLen 64 68719476705 12 0 0 16) ∧ gcmReady .std (gcmLen 64 68719476720 12 0 0 16) ∧
    (gcmLen 64 68719476720 12 0 0 16).inLen.toNat - gcmTag .std (gcmLen 64 68719476720 12 0 0 16) ≤ 68719476704 ∧
    gcmReady .std (gcmLen 64 65 12 0 0 16) ∧ gcmReady .nonce (gcmLen 64 64 65 0 0 16) ∧
    gcmReady .std (gcmLen 64 64 12 65 0 16) ∧ gcmReady .std (gcmLen 64 49 12 64 0 16) ∧
    gcmFits (gcmLen 64 49 12 64 0 16) ∧ gcmReady .std (gcmFull 15 []) ∧ gcmFits (gcmFull 15 []) := by
  refine ⟨?_, ?_, ?_, ?_, ?_, ?_, ?_, ?_, ?_, ?_, ?_, ?_, ?_, ?_, ?_, ?_, ?_, ?_, ?_, ?_⟩ <;>
    (try unfold gcmFits) <;> (try unfold gcmReady) <;> (try unfold gcmValid) <;> (try unfold nonceOk) <;>
    decide +kernel

/-- The clauses of GcmErrors about the collaborators' answers. -/
theorem test_witness_GcmErrors_answers : ∃ a b c d e f g h : State,
    gcmValid .std a ∧ a.ask (.cipherInit a.keyBytes) = none ∧
    b.ask (.cipherInit b.keyBytes) = some .fail ∧
    c.ask (.cipherInit c.keyBytes) = some .ok ∧ c.ask (.aeadInit c.ivLen.toNat (gcmTag .std c)) = none ∧
    d.ask (.cipherInit d.keyBytes) = some .ok ∧ d.ask (.aeadInit d.ivLen.toNat (gcmTag .std d)) = some .fail ∧
    e.ask (.sealData (gcmTag .std e) e.keyBytes e.ivBytes e.inBytes e.aadBytes) = none ∧
    f.ask (.openData (gcmTag .std f) f.keyBytes f.ivBytes f.inBytes f.aadBytes) = none ∧
    g.ask (.openData (gcmTag .std g) g.keyBytes g.ivBytes g.inBytes g.aadBytes) = some .fail ∧
    h.inLen.toNat < gcmTag .std h := by
  refine ⟨answered (gcmFull 48 []) [], answered (gcmFull 48 []) [⟨.cipherInit z16, .fail⟩],
    answered (gcmFull 48 []) [⟨.cipherInit z16, .ok⟩],
    answered (gcmFull 48 []) [⟨.cipherInit z16, .ok⟩, ⟨.aeadInit 12 16, .fail⟩], gcmFull 48 [], gcmFull 48 [],
    gcmFull 48 [⟨.openData 16 z16 n12 (hexB 48 0) (hexB 4 0), .fail⟩], gcmFull 15 [], ?_⟩
  refine ⟨?_, ?_, ?_, ?_, ?_, ?_, ?_, ?_, ?_, ?_, ?_⟩ <;> (try unfold gcmValid) <;> (try unfold nonceOk) <;>
    decide +kernel

theorem test_witness_AuthenticationFailureLeaksNothing : ∃ t : State, (gcmFull 15 []).busy = true ∧
    exec .decGcmStd (gcmFull 15 []) = .next t ∧ t.busy = false ∧ t.err = .authenticationFailed :=
  ⟨_, rfl, rfl, by decide +kernel, by decide +kernel⟩

theorem test_witness_StepKeepsInv : ∃ s t : State, Inv s ∧ step s = .next t := ⟨waiting, _, waiting_inv, rfl⟩

/-- Two states that agree on BLKSZ, IN_LEN, IN, the answers and BUF_CAP, and on nothing else that matters. -/
theorem test_witness_OutcomeDependsOnOperandsOnly : ∃ s s' : State, s ≠ s' ∧
    (∀ o ∈ operandsRead .padZero, o.same s s') ∧ s.params.bufCap = s'.params.bufCap ∧ s.answers = s'.answers ∧
    s.busy = true ∧ s'.busy = true := by
  refine ⟨padIn 8 (hexB 3 5), { padIn 8 (hexB 3 5) with arg0 := 7, tagsz := 3 }, by decide +kernel, ?_, rfl, rfl, rfl,
    rfl⟩
  intro o ho
  simp [operandsRead, Instr.command] at ho
  rcases ho with rfl | rfl | rfl <;> rfl

/-! A collaborator that answers every request of ENC.ECB.NONE on one block, within its laws, to the end. -/

/-- The answer `f` gives after the sequencer's move is lawful. -/
def roundLawful (f : State → Answer) (s : State) : Bool :=
  match s.sequencerMoves with
  | .next t =>
    match t.pending with
    | some o => lawfulAnswer t.transcript o.request (f t)
    | none => true
  | _ => true

theorem roundLawful_spec {f : State → Answer} {s t : State} {o : Outstanding} (h : roundLawful f s = true)
    (hs : s.sequencerMoves = .next t) (ho : t.pending = some o) : lawfulAnswer t.transcript o.request (f t) = true := by
  simpa only [roundLawful, hs, ho] using h

theorem answeredRounds_fixed {f : State → Answer} {z : State} (h : answeredRound f z = z) (n : Nat) :
    answeredRounds f n z = z := by
  induction n with
  | zero => rfl
  | succ n ih => rw [answeredRounds, h, ih]

def oneBlock : State := { tcIn p16 [] with busy := false }

/-- OK to a construction, and TC's block. -/
def tcAnswer (s : State) : Answer :=
  match s.pending with
  | some ⟨_, .encryptBlock k x⟩ => .bytes (tcE k x)
  | _ => .ok

theorem test_witness_CompletesWhenAnswered : answersLawfully tcAnswer (accept oneBlock 0x00000004) ∧
    (answeredRounds tcAnswer 1 (accept oneBlock 0x00000004)).transcript = [⟨.cipherInit tcK, .ok⟩] := by
  refine ⟨fun n t o hs ho => roundLawful_spec ?_ hs ho, by decide +kernel⟩
  match n with
  | 0 | 1 | 2 => decide +kernel
  | n + 3 =>
    have hz : answeredRound tcAnswer (answeredRounds tcAnswer 3 (accept oneBlock 0x00000004)) =
      answeredRounds tcAnswer 3 (accept oneBlock 0x00000004) := by decide +kernel
    have : answeredRounds tcAnswer (n + 3) (accept oneBlock 0x00000004) =
      answeredRounds tcAnswer 3 (accept oneBlock 0x00000004) := answeredRounds_fixed hz n
    rw [this]
    decide +kernel

end Sys2Proof.Tests
end

section
/-! PROOFS. The register file under the host's word accesses (10_state.md R23 to R33). -/

namespace Sys2Proof.Machine

/-! ### The register file (10_state.md section 3) -/

/-- The registers in the order of their offsets. -/
def Reg.all : List Reg :=
  [.cmd, .status, .ctrl, .blksz, .tagsz, .bufcap, .errargLo, .errargHi, .arg0Lo, .arg0Hi, .arg1Lo, .arg1Hi,
   .inLenLo, .inLenHi, .keyLenLo, .keyLenHi, .ivLenLo, .ivLenHi, .aadLenLo, .aadLenHi, .outLenLo, .outLenHi]

theorem reg_offset_lt (r : Reg) : r.offset < 0x058 := by cases r <;> decide

theorem reg_offset_legal (r : Reg) : legalAccess r.offset .word := .inl ⟨rfl, by cases r <;> decide⟩

theorem regAt_offset (r : Reg) : regAt r.offset = some r := by cases r <;> rfl

/-- A register is found at its own offset only. -/
theorem offset_of_regAt {o : Nat} {r : Reg} (h : regAt o = some r) : o = r.offset := by
  unfold regAt at h
  split at h <;> cases h <;> rfl

/-- The offsets above the last register are reserved (10_state.md R33). -/
theorem regAt_reserved {o : Nat} (h : 0x058 ≤ o) : regAt o = none := by
  refine Option.eq_none_iff_forall_ne_some.mpr fun r hr => ?_
  have := offset_of_regAt hr
  have := reg_offset_lt r
  omega

/-- Below 2^28 an offset lies in the register region. -/
theorem regionOf_lt {off : Nat} (h : off < 2 ^ 28) : regionOf off = 0 := Nat.div_eq_of_lt h

theorem withinRegion_lt {off : Nat} (h : off < 2 ^ 28) : withinRegion off = off := Nat.mod_eq_of_lt h

theorem readValue_register (s : State) (d : Word) (r : Reg) :
    readValue s d r.offset .word = if s.busy then readRegBusy s d r else readReg s r := by
  have h : r.offset < 2 ^ 28 := by have := reg_offset_lt r; omega
  simp [readValue, regionOf_lt h, withinRegion_lt h, regAt_offset]

theorem readValue_reserved (s : State) (d : Word) {off : Nat} (h : 0x058 ≤ off) (hlt : off < 2 ^ 28) :
    readValue s d off .word = 0 := by
  simp [readValue, regionOf_lt hlt, withinRegion_lt hlt, regAt_reserved h]

theorem writeIdle_register (s : State) (v : Word) (r : Reg) :
    writeIdle s v r.offset .word = writeReg s v r := by
  have h : r.offset < 2 ^ 28 := by have := reg_offset_lt r; omega
  simp [writeIdle, regionOf_lt h, withinRegion_lt h, regAt_offset]

theorem writeIdle_reserved (s : State) (v : Word) {off : Nat} (h : 0x058 ≤ off) (hlt : off < 2 ^ 28) :
    writeIdle s v off .word = s := by
  simp [writeIdle, regionOf_lt hlt, withinRegion_lt hlt, regAt_reserved h]

/-- A write while Busy sets BUSYWR, wherever it goes (70_reset_and_hazards.md R274). -/
theorem step_write_busy {s : State} {off : Nat} {w : Width} {v : Word} {ts : List Turn} (hb : s.busy = true)
    (h : s.hostNext off w (.write v) ts) (hl : legalAccess off w) :
    step s = .next { s with turns := ts, busywr := true, reply := some .written } := by
  rw [step_write h hl, busWrite, if_pos hb]

/-- A write while Idle. -/
theorem step_write_idle {s : State} {off : Nat} {w : Width} {v : Word} {ts : List Turn} (hb : s.busy = false)
    (h : s.hostNext off w (.write v) ts) (hl : legalAccess off w) :
    step s = .next { writeIdle { s with turns := ts } v off w with reply := some .written } := by
  rw [step_write h hl, busWrite, if_neg (ne_true_of_eq_false hb)]

/-- Whose turn it is does not show in a register write. -/
theorem writeReg_turns (s : State) (ts : List Turn) (v : Word) (r : Reg) :
    writeReg { s with turns := ts } v r = { writeReg s v r with turns := ts } := by
  cases r <;> rfl

/-- A register read while Idle. -/
theorem step_readReg {s : State} {r : Reg} {ts : List Turn} (hb : s.busy = false)
    (h : s.hostNext r.offset .word .read ts) :
    step s = .next { s with turns := ts, reply := some (.data (readReg s r)) } := by
  rw [step_read h (reg_offset_legal r), busRead, readValue_turns, readValue_register]
  simp [hb]

/-- A register write while Idle. -/
theorem step_writeReg {s : State} {r : Reg} {v : Word} {ts : List Turn} (hb : s.busy = false)
    (h : s.hostNext r.offset .word (.write v) ts) :
    step s = .next { writeReg s v r with turns := ts, reply := some .written } := by
  rw [step_write_idle hb h (reg_offset_legal r), writeIdle_register, writeReg_turns]

/-- The value of two bit vectors side by side. -/
theorem toNat_append_eq_add {m n : Nat} (x : BitVec m) (y : BitVec n) :
    (x ++ y).toNat = x.toNat * 2 ^ n + y.toNat := by
  rw [BitVec.toNat_append, ← Nat.shiftLeft_add_eq_or_of_lt y.isLt, Nat.shiftLeft_eq]

/-- STATUS as a number: each field at the weight of its lowest bit (10_state.md R24). -/
theorem statusOf_eq (busy done busywr : Bool) (err : Byte) :
    statusOf busy done busywr err =
      BitVec.ofNat 32 (busy.toNat + 2 * done.toNat + 4 * busywr.toNat + 256 * err.toNat) := by
  apply BitVec.eq_of_toNat_eq
  simp only [statusOf, toNat_append_eq_add, BitVec.toNat_ofBool, BitVec.ofNat_eq_ofNat, BitVec.toNat_ofNat]
  have := err.isLt
  have := busy.toNat_lt
  have := done.toNat_lt
  have := busywr.toNat_lt
  omega

/-- A one-bit field, zero-extended. -/
theorem setWidth_ofBool (b : Bool) : (BitVec.ofBool b).setWidth 32 = BitVec.ofNat 32 b.toNat := by
  cases b <;> rfl

/-- The claims' table of reads is the register file as it reads while Idle. -/
theorem registerValues_eq (s : State) : registerValues s = Reg.all.map fun r => (r.offset, readReg s r) := by
  simp [registerValues, Reg.all, Reg.offset, readReg, State.status, statusOf_eq, setWidth_ofBool, loHalf_eq,
    hiHalf_eq]

/-- The claims' table of writes is the register file under a write, CMD aside. -/
theorem registerWrites_eq (s : State) (v : Word) :
    registerWrites s v = Reg.all.tail.map fun r => (r.offset, writeReg s v r) := by
  simp [registerWrites, Reg.all, Reg.offset, writeReg, writeStatus, setLo_eq, setHi_eq,
    BitVec.setWidth_eq_extractLsb']

end Sys2Proof.Machine
end

section
/-! PROOFS. The sequencer: decoding the latched word, the frame of a command, and what only a host changes
(10_state.md R35, R36, R40; 30_encoding.md R81). -/

namespace Sys2Proof.Machine

/-! ### Decoding -/

/-- The fields of a command select it (30_encoding.md R77). -/
@[simp] theorem fields_command (c : Command) : c.fields.command = .ok c := by
  cases c with
  | pad k => cases k <;> rfl
  | unpad k => cases k <;> rfl
  | val p => cases p <;> rfl
  | enc m k => cases m <;> (cases k with | none => rfl | some k => cases k <;> rfl)
  | dec m k => cases m <;> (cases k with | none => rfl | some k => cases k <;> rfl)
  | encGcm v => cases v <;> rfl
  | decGcm v => cases v <;> rfl

/-- The word of a command decodes to it (30_encoding.md R80, R81). -/
@[simp] theorem decode_encode (i : Instr) : decode (encode i) = .ok i := by
  simp [decode_eq, encode]

theorem sequencerStep_idle {s : State} (h : s.busy = false) : sequencerStep s = .next s := by
  simp [sequencerStep, h]

theorem sequencerStep_decoded {s : State} {i : Instr} (h : s.busy = true) (hd : decode s.cmd = .ok i) :
    sequencerStep s = exec i s := by
  simp [sequencerStep, h, State.latched, hd]

/-- The next step runs the word that withFetchWord has placed. -/
theorem step_withFetchWord (s : State) (w : Word) :
    step (s.withFetchWord 32 w.toNat) = sequencerStep (accept s w) := by
  have hw : BitVec.ofNat 32 (w.toNat % 2 ^ 32) = w := by rw [Nat.mod_eq_of_lt w.isLt]; simp
  rw [State.withFetchWord, hw]
  rfl

/-! ### The frame of a command (10_state.md R35) -/

theorem sameOperands_finish (s : State) (out : Bytes) : sameOperands s (finish s out) := by
  simp [sameOperands]

theorem sameOperands_raiseErr (s : State) (code : Code) (arg : Nat) :
    sameOperands s (raiseErr s code arg) := by
  simp [sameOperands]

theorem sameOperands_waitFor (s : State) (q : Request) : sameOperands s (waitFor s q) := by
  obtain ⟨o, n, h, -⟩ := waitFor_eq s q
  simp [h, sameOperands]

/-- A wait changes the outstanding request and the request counter alone. -/
theorem waitFor_frame (s : State) (q : Request) :
    waitFor s q = { s with pending := (waitFor s q).pending, tickets := (waitFor s q).tickets } := by
  obtain ⟨o, n, h, -⟩ := waitFor_eq s q
  rw [h]

/-- The bytes a success leaves alone are those outside OUTBUF[0..OUT_LEN). -/
theorem byteAt_finish_of_outside_outLen {s : State} {out : Bytes} {a : Nat} (hp : paramsLegal s.params)
    (hl : out.length ≤ s.params.bufCap)
    (ha : a < Buf.base .output ∨ Buf.base .output + (finish s out).outLen.toNat ≤ a) :
    (finish s out).byteAt a = s.byteAt a := by
  have hcap := hp.2
  have hlen : (finish s out).outLen.toNat = out.length := by simp; omega
  exact byteAt_finish_of_outside s out a (by omega)

/-- A VAL command ends at once, with no output or with an error (41_validator.md R150, R151). -/
theorem exec_val {i : Instr} {p : Pred} (h : i.command = .val p) (s : State) :
    exec i s = .next (finish s []) ∨ ∃ code arg, exec i s = .next (raiseErr s code arg) := by
  have hbody : Command.body i.command s = valCmd (predCheck p s.arg0.toNat s.arg1.toNat) := by rw [h]; rfl
  rw [exec_eq, hbody, valCmd]
  rcases predCheck_isCheck p s.arg0.toNat s.arg1.toNat with hc | ⟨code, arg, -, hc⟩
  · rw [hc]; exact .inl rfl
  · rw [hc]; exact .inr ⟨code, arg, rfl⟩

/-- A VAL command stores nothing. -/
theorem exec_val_frame {i : Instr} {p : Pred} {s t : State} (hi : i.command = .val p)
    (h : exec i s = .next t) : t.outLen = 0 ∧ ∀ a, t.byteAt a = s.byteAt a := by
  rcases exec_val hi s with hx | ⟨code, arg, hx⟩ <;> rw [hx] at h <;> cases h
  · exact ⟨rfl, fun a => byteAt_finish_of_outside s [] a (by simp)⟩
  · exact ⟨rfl, fun a => rfl⟩

/-! ### What only a host changes (10_state.md R35, R36) -/

/-- CMD, CTRL.IE, the operand registers and the input buffers are as they were, and so are the parameters. -/
structure InputsKept (s t : State) : Prop where
  params : t.params = s.params
  cmd    : t.cmd = s.cmd
  ie     : t.ie = s.ie
  blksz  : t.blksz = s.blksz
  tagsz  : t.tagsz = s.tagsz
  arg0   : t.arg0 = s.arg0
  arg1   : t.arg1 = s.arg1
  inLen  : t.inLen = s.inLen
  keyLen : t.keyLen = s.keyLen
  ivLen  : t.ivLen = s.ivLen
  aadLen : t.aadLen = s.aadLen
  bytes  : ∀ a, a < Buf.base .output → t.byteAt a = s.byteAt a

theorem inputsKept_refl (s : State) : InputsKept s s :=
  ⟨rfl, rfl, rfl, rfl, rfl, rfl, rfl, rfl, rfl, rfl, rfl, fun _ _ => rfl⟩

/-- A command that stores in OUTBUF only keeps the inputs. -/
theorem inputsKept_of_sameOperands {s t : State} (h : sameOperands s t)
    (hb : ∀ a, a < Buf.base .output → t.byteAt a = s.byteAt a) : InputsKept s t := by
  obtain ⟨params, cmd, -, ie, blksz, tagsz, arg0, arg1, inLen, keyLen, ivLen, aadLen, -⟩ := h
  exact ⟨params, cmd, ie, blksz, tagsz, arg0, arg1, inLen, keyLen, ivLen, aadLen, hb⟩

/-- The four input buffers lie below OUTBUF (20_memory.md R51). -/
theorem inputByte_lt_output {b : Buf} {k : Nat} (hb : b ≠ .output) (hk : k < 2 ^ 28) :
    Buf.base b + k < Buf.base .output := by
  cases b
  case output => exact absurd rfl hb
  all_goals simp only [Buf.base, Buf.region]; omega

theorem sequencerStep_inputsKept {s t : State} (h : sequencerStep s = .next t) : InputsKept s t := by
  rcases sequencerStep_next h with ⟨-, rfl⟩ | ⟨-, out, -, rfl⟩ | ⟨-, code, arg, -, rfl⟩ | ⟨-, q, -, rfl⟩
  · exact inputsKept_refl _
  · exact inputsKept_of_sameOperands (sameOperands_finish s out) fun a ha =>
      byteAt_finish_of_outside s out a (by omega)
  · exact inputsKept_of_sameOperands (sameOperands_raiseErr s code arg) fun a _ => rfl
  · exact inputsKept_of_sameOperands (sameOperands_waitFor s q) fun a _ => byteAt_waitFor s q a

theorem answerArrives_inputsKept {s t : State} {k : Nat} {a : Answer} (h : answerArrives s k a = .next t) :
    InputsKept s t := by
  rcases answerArrives_next h with rfl | ⟨o, -, -, -, rfl⟩
  · exact inputsKept_refl _
  · exact { inputsKept_refl s with }

/-- A write while Idle does not touch the parameters. -/
theorem writeReg_params (s : State) (v : Word) (r : Reg) : (writeReg s v r).params = s.params := by
  cases r <;> rfl

theorem writeIdle_params (s : State) (v : Word) (off : Nat) (w : Width) :
    (writeIdle s v off w).params = s.params := by
  unfold writeIdle
  split
  · split
    · exact writeReg_params s v _
    · rfl
  · obtain ⟨m, hm⟩ := writeWindow_eq s v off w.bytes
    rw [hm]

/-- An offset's address is BASE and the offset. -/
theorem offsetOf_eq_some {base address off : Nat} (h : offsetOf base address = some off) :
    off < 2 ^ 32 ∧ address = base + off := by
  unfold offsetOf at h
  split at h
  · cases h; omega
  · cases h

/-- A bus access that is no write while Idle keeps the inputs. -/
theorem busAccess_inputs {a : Access} {s t : State} (h : busAccess a s = .next t) :
    t.params = s.params ∧
      (InputsKept s t ∨
        s.busy = false ∧ ∃ off v, off < 2 ^ 32 ∧ a = ⟨s.params.base + off, a.width, .write v⟩) := by
  rcases busAccess_next h with rfl | ⟨off, -, -, -, rfl⟩ | ⟨off, v, hk, hoff, -, rfl⟩ | rfl
  · exact ⟨rfl, .inl (inputsKept_refl _)⟩
  · exact ⟨rfl, .inl { inputsKept_refl s with }⟩
  · rcases hb : s.busy
    · obtain ⟨hlt, haddr⟩ := offsetOf_eq_some hoff
      rw [busWrite, if_neg (ne_true_of_eq_false hb)]
      exact ⟨writeIdle_params s v off a.width, .inr ⟨rfl, off, v, hlt, by rw [← haddr, ← hk]⟩⟩
    · rw [busWrite, if_pos hb]
      exact ⟨rfl, .inl { inputsKept_refl s with }⟩
  · exact ⟨rfl, .inl { inputsKept_refl s with }⟩

/-- A step keeps the inputs, or it is a host write while Idle, or a reset. -/
theorem step_inputs {s t : State} (h : step s = .next t) :
    t.params = s.params ∧
      (InputsKept s t ∨ (s.busy = false ∧ ∃ off w v ts, s.hostNext off w (.write v) ts) ∨
        ∃ ts, s.turns = .reset :: ts) := by
  rcases step_next h with ⟨ts, -, hs⟩ | ⟨a, ts, hturn, hs⟩ | ⟨k, a, ts, -, hs⟩ | ⟨ts, hturn, rfl⟩
  · have hkept := sequencerStep_inputsKept hs
    exact ⟨hkept.params, .inl { hkept with }⟩
  · obtain ⟨hparams, hkept | ⟨hb, off, v, hlt, ha⟩⟩ := busAccess_inputs hs
    · exact ⟨hparams, .inl { hkept with }⟩
    · exact ⟨hparams, .inr (.inl ⟨hb, off, a.width, v, ts, hlt, by rw [hturn, ha]⟩)⟩
  · have hkept := answerArrives_inputsKept hs
    exact ⟨hkept.params, .inl { hkept with }⟩
  · exact ⟨rfl, .inr (.inr ⟨ts, hturn⟩)⟩

end Sys2Proof.Machine
end

section
/-! PROOFS. Every agent's move keeps the invariant (10_state.md R24, R34, R37, R40, R41). -/

namespace Sys2Proof.Machine

/-! ### The invariant at reset -/

theorem params_legal : paramsLegal Config.params := by
  have := Config.bufCapAbove64.isLt
  simp only [paramsLegal, Config.params]
  omega

/-- After a reset nothing is stored, nothing is readable and nothing runs: what is left to say is about the
parameters and the collaborators' past. -/
theorem inv_resetEvent {s : State} (hp : paramsLegal s.params) (ht : transcriptLawful s.transcript) :
    Inv (resetEvent s) where
  params      := hp
  memWf       := rfl
  memPlaced   := nofun
  outFits     := Nat.zero_le _
  outWritten  := fun k hk => absurd hk (Nat.not_lt_zero k)
  idleQuiet   := fun _ => ⟨rfl, rfl⟩
  busyNotDone := fun _ => rfl
  errNoOutput := fun _ => rfl
  okNoPayload := fun _ => rfl
  answersFit  := nofun
  ticketUsed  := nofun
  lawsKept    := ht
  answersKept := nofun

/-! ### The end of a command keeps the invariant -/

/-- The outstanding request and the answers may be dropped at any time (10_state.md R42). -/
theorem inv_dropRun {s : State} (h : Inv s) : Inv { s with pending := none, answers := [] } :=
  { h with idleQuiet := fun _ => ⟨rfl, rfl⟩, answersFit := nofun, ticketUsed := nofun, answersKept := nofun }

theorem regionOf_output {k : Nat} (h : k < 2 ^ 28) : regionOf (Buf.base .output + k) = 5 := by
  simp only [regionOf, Buf.base, Buf.region]; omega

theorem withinRegion_output {k : Nat} (h : k < 2 ^ 28) : withinRegion (Buf.base .output + k) = k := by
  simp only [withinRegion, Buf.base, Buf.region]; omega

theorem inv_finish {s : State} {out : Bytes} (h : Inv s) (hl : out.length ≤ s.params.bufCap) :
    Inv (finish s out) := by
  have hcap : s.params.bufCap ≤ 2 ^ 28 := h.params.2
  have hlen : (finish s out).outLen.toNat = out.length := by simp; omega
  refine { inv_dropRun h with
    memWf       := Memory.wf_writeBytes _ _ _ h.memWf
    memPlaced   := fun c hc => ?_
    outFits     := hlen.trans_le hl
    outWritten  := fun k hk => ?_
    idleQuiet   := fun _ => ⟨rfl, rfl⟩
    busyNotDone := nofun
    errNoOutput := fun he => absurd rfl he
    okNoPayload := fun _ => rfl }
  · rcases Memory.mem_writeBytes _ _ _ _ hc with ⟨hlo, hhi⟩ | hold
    · obtain ⟨k, hk⟩ := Nat.exists_eq_add_of_le hlo
      rw [hk, regionOf_output (by omega), withinRegion_output (by omega), finish_params]
      omega
    · exact h.memPlaced c hold
  · rw [finish_mem, Memory.read_writeBytes_of_inside _ _ _ _ (hlen ▸ hk)]
    rfl

theorem inv_raiseErr {s : State} {code : Code} (h : Inv s) (hc : code ≠ .ok) (arg : Nat) :
    Inv (raiseErr s code arg) :=
  { inv_dropRun h with
    outFits     := Nat.zero_le _
    outWritten  := fun k hk => absurd hk (Nat.not_lt_zero k)
    idleQuiet   := fun _ => ⟨rfl, rfl⟩
    busyNotDone := nofun
    errNoOutput := fun _ => rfl
    okNoPayload := fun he => absurd he hc }

theorem inv_waitFor {s : State} (h : Inv s) (hb : s.busy = true) (q : Request) : Inv (waitFor s q) := by
  obtain ⟨o, n, heq, -, -, hticket⟩ := waitFor_eq s q
  rw [heq]
  refine { h with
    idleQuiet  := fun hidle => absurd hb (ne_true_of_eq_false hidle)
    ticketUsed := fun o' ho' => ?_ }
  cases ho'
  rcases hticket with ⟨rfl, hp⟩ | ⟨rfl, ht⟩
  · exact h.ticketUsed o hp
  · exact ht ▸ Nat.lt_succ_self _

theorem inv_sequencerStep {s t : State} (h : Inv s) (hs : sequencerStep s = .next t) : Inv t := by
  rcases sequencerStep_next hs with
    ⟨-, rfl⟩ | ⟨-, out, hl, rfl⟩ | ⟨-, code, arg, hc, rfl⟩ | ⟨hb, q, -, rfl⟩
  · exact h
  · exact inv_finish h hl
  · exact inv_raiseErr h hc arg
  · exact inv_waitFor h hb q

/-! ### The collaborators keep the invariant -/

theorem inv_answerArrives {s t : State} {k : Nat} {a : Answer} (h : Inv s)
    (hs : answerArrives s k a = .next t) : Inv t := by
  rcases answerArrives_next hs with rfl | ⟨o, hp, -, hlaw, rfl⟩
  · exact h
  have hfits : o.request.fits a = true := ((lawfulAnswer_iff _ _ _).mp hlaw).1
  refine { h with
    idleQuiet   := fun hidle => ?_
    answersFit  := fun x hx => ?_
    ticketUsed  := nofun
    lawsKept    := transcriptLawful_append h.lawsKept hlaw
    answersKept := fun x hx => ?_ }
  · exact absurd ((h.idleQuiet hidle).1.symm.trans hp) (Option.some_ne_none _).symm
  · rcases List.mem_append.mp hx with hx | hx
    · exact h.answersFit x hx
    · cases List.mem_singleton.mp hx; exact hfits
  · rcases List.mem_append.mp hx with hx | hx
    · exact List.mem_append_left _ (h.answersKept x hx)
    · exact List.mem_append_right _ hx

/-! ### The host keeps the invariant -/

theorem inv_accept {s : State} (h : Inv s) (w : Word) : Inv (accept s w) :=
  { inv_dropRun h with idleQuiet := fun _ => ⟨rfl, rfl⟩, busyNotDone := fun _ => rfl }

/-- Clearing DONE and BUSYWR cannot set DONE. -/
theorem inv_writeStatus {s : State} (h : Inv s) (v : Word) : Inv (writeStatus s v) :=
  { h with busyNotDone := fun hb => by rw [writeStatus_done, h.busyNotDone hb, Bool.false_and] }

/-- CMD and STATUS aside, a register write touches nothing that the invariant speaks of. -/
theorem inv_writeReg {s : State} (h : Inv s) (v : Word) (r : Reg) : Inv (writeReg s v r) := by
  cases r
  case cmd => exact inv_accept h v
  case status => exact inv_writeStatus h v
  all_goals exact { h with }

theorem inv_writeByte {s : State} (h : Inv s) (off : Nat) (b : Byte) : Inv (writeByte s off b) := by
  rcases writeByte_cases s off b with heq | ⟨hcap, hlo, hhi, heq⟩ <;> rw [heq]
  · exact h
  refine { h with memWf := Memory.wf_write _ _ _ h.memWf, memPlaced := fun c hc => ?_,
                  outWritten := fun k hk => ?_ }
  · rcases Memory.mem_write _ _ _ _ hc with rfl | hold
    · exact ⟨hlo, Nat.le_succ_of_le hhi, hcap⟩
    · exact h.memPlaced c hold
  · rw [Memory.read_write]
    split
    · rfl
    · exact h.outWritten k hk

theorem inv_writeWindow {s : State} (h : Inv s) (v : Word) (off w : Nat) : Inv (writeWindow s v off w) := by
  induction w with
  | zero => exact h
  | succ w ih => exact inv_writeByte ih _ _

theorem inv_writeIdle {s : State} (h : Inv s) (v : Word) (off : Nat) (w : Width) :
    Inv (writeIdle s v off w) := by
  unfold writeIdle
  split
  · split
    · exact inv_writeReg h v _
    · exact h
  · exact inv_writeWindow h v off _

theorem inv_busWrite {s : State} (h : Inv s) (v : Word) (off : Nat) (w : Width) :
    Inv (busWrite s v off w) := by
  unfold busWrite
  split
  · exact { h with }
  · exact { inv_writeIdle h v off w with }

theorem inv_busAccess {a : Access} {s t : State} (h : Inv s) (hs : busAccess a s = .next t) : Inv t := by
  rcases busAccess_next hs with rfl | ⟨off, -, -, -, rfl⟩ | ⟨off, v, -, -, -, rfl⟩ | rfl
  · exact h
  · exact { h with }
  · exact inv_busWrite h v off _
  · exact { h with }

end Sys2Proof.Machine
end

section
/-! PROOFS. The obligations of 10_state.md, from the lemmas above. -/

namespace Sys2Proof.Proofs

open Sys2Proof.Machine

/-- Settles O57, by one lemma for each agent: the end of a command, an answer, a host access, a reset. -/
theorem stepKeepsInv : Obligations.StepKeepsInv := by
  intro s t h hs
  have hturns (ts : List Turn) : Inv { s with turns := ts } := { h with }
  rcases step_next hs with ⟨ts, -, hs⟩ | ⟨a, ts, -, hs⟩ | ⟨k, a, ts, -, hs⟩ | ⟨ts, -, rfl⟩
  · exact inv_sequencerStep (hturns ts) hs
  · exact inv_busAccess (hturns ts) hs
  · exact inv_answerArrives (hturns ts) hs
  · exact inv_resetEvent h.params h.lawsKept

/-- Settles O12: the entries of the claims' table are the registers, and a read returns `readReg`. -/
theorem registerReads : Obligations.RegisterReads := by
  intro s off v ts hb hmem h
  rw [registerValues_eq] at hmem
  obtain ⟨r, -, hr⟩ := List.mem_map.mp hmem
  cases hr
  exact step_readReg hb h

/-- Settles O13: the entries of the claims' table are the registers, and a write does `writeReg`. -/
theorem registerWrites : Obligations.RegisterWrites := by
  intro s t off v ts hb hmem h
  rw [registerWrites_eq] at hmem
  obtain ⟨r, -, hr⟩ := List.mem_map.mp hmem
  cases hr
  exact step_writeReg hb h

/-- Settles O24: a step that is no idle host write and no reset keeps every input, by `step_inputs`. -/
theorem operandsChangeOnlyByIdleHostWrites : Obligations.OperandsChangeOnlyByIdleHostWrites := by
  intro s t h
  obtain ⟨hparams, hkept | hcause⟩ := step_inputs h
  · refine ⟨hparams, fun hchange => absurd hchange ?_⟩
    obtain ⟨-, cmd, ie, blksz, tagsz, arg0, arg1, inLen, keyLen, ivLen, aadLen, bytes⟩ := hkept
    simp only [cmd, ie, blksz, tagsz, arg0, arg1, inLen, keyLen, ivLen, aadLen, ne_eq, not_true_eq_false,
      false_or]
    rintro ⟨b, k, hb, hk, hne⟩
    exact hne (bytes _ (inputByte_lt_output hb hk))
  · exact ⟨hparams, fun _ => hcause⟩

/-- Settles O26, by the three ways a command can leave the sequencer: success, failure, wait. -/
theorem commandFrame : Obligations.CommandFrame := by
  intro i s t hp h
  have hval (p : Pred) (hi : i.command = .val p) := exec_val_frame hi h
  rcases exec_cases i s with ⟨out, hl, hx⟩ | ⟨code, arg, -, hx⟩ | ⟨q, -, hx⟩ <;> cases hx.symm.trans h
  · exact ⟨sameOperands_finish s out, fun a ha => byteAt_finish_of_outside_outLen hp hl ha,
      fun he => absurd rfl he, hval, nofun⟩
  · exact ⟨sameOperands_raiseErr s code arg, fun a _ => rfl, fun _ a => rfl, hval,
      nofun⟩
  · exact ⟨sameOperands_waitFor s q, fun a _ => byteAt_waitFor s q a, fun _ a => byteAt_waitFor s q a, hval,
      fun _ _ => ⟨waitFor_frame s q, byteAt_waitFor s q⟩⟩

/-- Settles O4: the latched word decodes to its command, and a placed word is what `encode` gave. -/
theorem stepRunsDecodedCommand : Obligations.StepRunsDecodedCommand := by
  refine ⟨fun s i ts h hb hd => ?_, fun s ts h hb => ?_, fun s i => ?_⟩
  · exact (step_sequencer h).trans (sequencerStep_decoded hb hd)
  · exact (step_sequencer h).trans (sequencerStep_idle hb)
  · have hd : decode (accept s (encode i)).cmd = .ok i := decode_encode i
    exact (step_withFetchWord s _).trans (sequencerStep_decoded (accept_busy s _) hd)

/-- Settles O9: acceptance while Idle, BUSYWR alone while Busy, and the read-back of CMD at any time. -/
theorem cmdWriteAccepted : Obligations.CmdWriteAccepted := by
  refine ⟨fun s w ts hb h => ?_, fun s w ts hb h => ?_, fun s ts h => ?_, rfl, rfl⟩
  · exact step_writeReg (r := .cmd) hb h
  · exact step_write_busy hb h (reg_offset_legal .cmd)
  · refine ⟨_, step_read h (reg_offset_legal .cmd), ?_, rfl⟩
    have hread := readValue_register { s with turns := ts } (Config.freeWord s.draws) .cmd
    simp only [readRegBusy, readReg, ite_self] at hread
    exact congrArg (some ∘ Reply.data) hread

/-- Settles O16: no register lies at a reserved offset. -/
theorem reservedRegisterOffsets : Obligations.ReservedRegisterOffsets := by
  intro s off ts hlo hhi halign
  have hl : legalAccess off .word := .inl ⟨rfl, halign⟩
  refine ⟨fun h => ?_, fun v hb h => ?_⟩
  · rw [step_read h hl, busRead, readValue_reserved _ _ hlo hhi]
  · rw [step_write_idle hb h hl, writeIdle_reserved _ _ hlo hhi]

/-- Settles O56: the reset state holds nothing that a reset event does not leave behind too. -/
theorem invAtReset : Obligations.InvAtReset :=
  { inv_resetEvent (s := State.reset) params_legal transcriptLawful_nil with }

end Sys2Proof.Proofs
end

section
/-! PROOFS. The buffer windows under the host's accesses, byte by byte (20_memory.md R51 to R54). -/

namespace Sys2Proof.Machine

/-! ### The bytes of a legal access (20_memory.md R51, R53) -/

/-- A legal access covers at most four bytes. -/
theorem legalAccess_bytes_le {off : Nat} {w : Width} (h : legalAccess off w) : w.bytes ≤ 4 := by
  rcases h with ⟨rfl, -⟩ | ⟨-, rfl | ⟨rfl, -⟩⟩ <;> decide

/-- A legal access does not leave its region, because 2^28 is a multiple of its width. -/
theorem legalAccess_inRegion {off j : Nat} {w : Width} (h : legalAccess off w) (hj : j < w.bytes) :
    off % 2 ^ 28 + j < 2 ^ 28 := by
  rcases h with ⟨rfl, halign⟩ | ⟨-, rfl | ⟨rfl, halign⟩⟩ <;> simp only [Width.bytes] at hj <;> omega

theorem regionOf_add {off j : Nat} (h : off % 2 ^ 28 + j < 2 ^ 28) : regionOf (off + j) = off / 2 ^ 28 := by
  simp only [regionOf]; omega

theorem withinRegion_add {off j : Nat} (h : off % 2 ^ 28 + j < 2 ^ 28) :
    withinRegion (off + j) = off % 2 ^ 28 + j := by
  simp only [withinRegion]; omega

theorem regionOf_ne_zero {off : Nat} (h : 2 ^ 28 ≤ off) : regionOf off ≠ 0 := by
  simp only [regionOf]; omega

/-! ### What each region reads as (20_memory.md R51, R52) -/

theorem windowByte_input (s : State) (d : Byte) {off : Nat} (hlo : 1 ≤ regionOf off) (hhi : regionOf off ≤ 4) :
    windowByte s d off = if withinRegion off < s.params.bufCap then s.byteAt off else 0 := by
  obtain h | h | h | h : regionOf off = 1 ∨ regionOf off = 2 ∨ regionOf off = 3 ∨ regionOf off = 4 := by omega
  all_goals simp only [windowByte, h]

theorem windowByte_output (s : State) (d : Byte) {off : Nat} (h : regionOf off = 5) :
    windowByte s d off =
      if withinRegion off < s.params.bufCap then
        if s.busy then d else s.outByte (withinRegion off)
      else 0 := by
  simp only [windowByte, h]

theorem windowByte_reserved (s : State) (d : Byte) {off : Nat} (h : 6 ≤ regionOf off) :
    windowByte s d off = 0 := by
  obtain ⟨n, hn⟩ := Nat.exists_eq_add_of_le' h
  simp [windowByte, hn]

/-- Output byte `k` is stored at OUTBUF's offset `k` (10_state.md R37). -/
theorem outByte_withinRegion (s : State) {off : Nat} (h : regionOf off = 5) :
    s.outByte (withinRegion off) = if withinRegion off < s.outLen.toNat then s.byteAt off else 0 := by
  have hoff : Buf.base .output + withinRegion off = off := by
    simp only [regionOf, withinRegion, Buf.base, Buf.region] at *; omega
  rw [State.outByte, hoff]

/-- The byte that a read while Idle finds in a buffer or reserved region. -/
theorem windowByte_idle {s : State} (hb : s.busy = false) (d : Byte) {off : Nat} (h : regionOf off ≠ 0) :
    windowByte s d off =
      if withinRegion off < s.params.bufCap ∧
          (regionOf off ≤ 4 ∨ (regionOf off = 5 ∧ withinRegion off < s.outLen.toNat))
      then s.byteAt off else 0 := by
  obtain hr | hr | hr : regionOf off ≤ 4 ∨ regionOf off = 5 ∨ 6 ≤ regionOf off := by omega
  · simp [windowByte_input s d (Nat.one_le_iff_ne_zero.mpr h) hr, hr]
  · simp [windowByte_output s d hr, outByte_withinRegion s hr, hr, hb, ite_and]
  · rw [windowByte_reserved s d hr, if_neg (by omega)]

/-- Byte `j` of what a read of a buffer or reserved region returns (20_memory.md R54). -/
theorem readValue_window_byte (s : State) (d : Word) {off j : Nat} {w : Width} (hl : legalAccess off w)
    (hoff : 2 ^ 28 ≤ off) (hj : j < w.bytes) :
    (readValue s d off w).extractLsb' (8 * j) 8 = windowByte s (d.extractLsb' (8 * j) 8) (off + j) := by
  rw [readValue, if_neg (regionOf_ne_zero hoff), readWindow_byte s d off _ j (legalAccess_bytes_le hl) hj]

/-! ### What a write stores (20_memory.md R51, R52, 10_state.md R38) -/

/-- The offsets a host's write reaches: below BUF_CAP in one of the four input buffers. -/
abbrev State.hostWritable (s : State) (a : Nat) : Prop :=
  withinRegion a < s.params.bufCap ∧ 1 ≤ regionOf a ∧ regionOf a ≤ 4

theorem byteAt_writeByte (s : State) (off : Nat) (b : Byte) (a : Nat) :
    (writeByte s off b).byteAt a = if a = off ∧ s.hostWritable off then b else s.byteAt a := by
  by_cases hw : s.hostWritable off
  · rw [writeByte, if_pos hw]
    by_cases ha : a = off <;> simp [State.byteAt, Memory.read_write, hw, ha]
  · rw [writeByte, if_neg hw, if_neg fun h => hw h.2]

/-- A write of `n` bytes stores the bytes of `v` little-endian at the writable offsets it covers. -/
theorem byteAt_writeWindow (s : State) (v : Word) (off n a : Nat) :
    (writeWindow s v off n).byteAt a =
      if (off ≤ a ∧ a < off + n) ∧ s.hostWritable a then v.extractLsb' (8 * (a - off)) 8 else s.byteAt a := by
  induction n with
  | zero => rw [if_neg (by omega)]; rfl
  | succ n ih =>
    have hwritable : (writeWindow s v off n).hostWritable (off + n) ↔ s.hostWritable (off + n) := by
      obtain ⟨m, hm⟩ := writeWindow_eq s v off n
      rw [hm]
    rw [writeWindow, byteAt_writeByte, ih]
    by_cases ha : a = off + n
    · subst ha
      simp [hwritable]
    · have hcover : off ≤ a ∧ a < off + (n + 1) ↔ off ≤ a ∧ a < off + n := by omega
      simp only [ha, false_and, if_false, hcover]

/-- Which of the offsets a legal access covers are writable: the access offset's region decides. -/
theorem hostWritable_of_access (s : State) {off a : Nat} {w : Width} (hl : legalAccess off w)
    (hoff : 2 ^ 28 ≤ off) (hlo : off ≤ a) (hhi : a < off + w.bytes) :
    s.hostWritable a ↔ off / 2 ^ 28 ≤ 4 ∧ a % 2 ^ 28 < s.params.bufCap := by
  have hregion : regionOf a = off / 2 ^ 28 := by
    obtain ⟨j, rfl⟩ := Nat.exists_eq_add_of_le hlo
    exact regionOf_add (legalAccess_inRegion hl (by omega))
  rw [State.hostWritable, hregion, withinRegion]
  omega

/-- A write to a buffer or reserved region while Idle. -/
theorem step_writeWindow {s : State} {off : Nat} {w : Width} {v : Word} {ts : List Turn} (hb : s.busy = false)
    (h : s.hostNext off w (.write v) ts) (hl : legalAccess off w) (hoff : 2 ^ 28 ≤ off) :
    step s = .next { writeWindow { s with turns := ts } v off w.bytes with reply := some .written } := by
  rw [step_write_idle hb h hl, writeIdle, if_neg (regionOf_ne_zero hoff)]

end Sys2Proof.Machine
end

section
/-! PROOFS. The obligations of 20_memory.md, from the lemmas above. -/

namespace Sys2Proof.Proofs

open Sys2Proof.Machine

/-- Settles O17: the access stays in one region, so `windowByte_idle` gives each of its bytes. -/
theorem bufferReads : Obligations.BufferReads := by
  intro s off w ts hb h hl hoff
  refine ⟨readValue s (Config.freeWord s.draws) off w, ?_, fun j hj => ?_⟩
  · rw [step_read h hl, busRead, readValue_turns]
    simp [hb]
  · have hin := legalAccess_inRegion hl hj
    have hregion : regionOf (off + j) ≠ 0 := regionOf_ne_zero (Nat.le_add_right_of_le hoff)
    rw [readValue_window_byte s _ hl hoff hj, windowByte_idle hb _ hregion, regionOf_add hin,
      withinRegion_add hin]

/-- Settles O18: a write is its bytes' writes, and the access stays in one region. -/
theorem bufferWrites : Obligations.BufferWrites := by
  intro s off w v ts hb h hl hoff
  obtain ⟨m, hm⟩ := writeWindow_eq { s with turns := ts } v off w.bytes
  refine ⟨m, by rw [step_writeWindow hb h hl hoff, hm], fun a => ?_⟩
  have hbyte := byteAt_writeWindow { s with turns := ts } v off w.bytes a
  rw [hm] at hbyte
  refine hbyte.trans (if_congr ?_ rfl rfl)
  rw [and_assoc]
  exact and_congr_right fun hlo => and_congr_right fun hhi =>
    hostWritable_of_access { s with turns := ts } hl hoff hlo hhi

/-- Settles O15: an access that breaks R53 is a bus error, in whichever way the bus reports one. -/
theorem illegalAccessIsBusError : Obligations.IllegalAccessIsBusError := by
  intro s off w k ts h hl
  rw [step_illegalAccess h hl, busError]
  exact ⟨fun herr => if_pos herr, fun herr => if_neg (ne_true_of_eq_false herr)⟩

end Sys2Proof.Proofs
end

section
/-! PROOFS. The codes of the fields, and the words the decoder accepts (30_encoding.md R70 to R81). -/

namespace Sys2Proof

/-! ### The codes of a field (30_encoding.md R72 to R75) -/

theorem eq_optCode_of_ofCode {c : BitVec 4} {k : Option Scheme} (h : Scheme.ofCode c = some k) :
    c = Scheme.optCode k := by
  unfold Scheme.ofCode at h
  split at h <;> cases h <;> exact BitVec.eq_of_toNat_eq ‹_›

theorem eq_modeCode_of_ofCode {c : BitVec 4} {m : BMode} (h : BMode.ofCode c = some (some m)) :
    c = m.code := by
  unfold BMode.ofCode at h
  split at h <;> cases h <;> exact BitVec.eq_of_toNat_eq ‹_›

/-- Of the MODE values only 5 is GCM. -/
theorem eq_five_of_ofCode {c : BitVec 4} (h : BMode.ofCode c = some none) : c = 5 := by
  unfold BMode.ofCode at h
  split at h <;> cases h
  exact BitVec.eq_of_toNat_eq ‹_›

theorem eq_gvarCode_of_ofCode {c : BitVec 2} {v : GVar} (h : GVar.ofCode c = some v) : c = v.code := by
  unfold GVar.ofCode at h
  split at h <;> cases h <;> exact BitVec.eq_of_toNat_eq ‹_›

theorem eq_predCode_of_ofCode {c : BitVec 4} {p : Pred} (h : Pred.ofCode c = some p) : c = p.code := by
  unfold Pred.ofCode at h
  split at h <;> cases h <;> exact BitVec.eq_of_toNat_eq ‹_›

/-! ### The fields of a word that decodes -/

/-- Fields that pass a check and the rest of the decoder are decoded. -/
theorem ite_error_eq_ok {p : Prop} [Decidable p] {e : DecodeError} {x : Except DecodeError Command}
    {c : Command} : (if p then .error e else x) = .ok c ↔ ¬ p ∧ x = .ok c := by
  split <;> simp [*]

/-- A PAD or UNPAD word selects a scheme and leaves the other fields 0. -/
theorem padCommand_eq_ok {f : Fields} {k : Scheme → Command} {c : Command} (h : f.padCommand k = .ok c) :
    ∃ s, c = k s ∧ f.scheme = s.code ∧ f.mode = 0 ∧ f.gvar = 0 ∧ f.vsel = 0 := by
  simp only [Fields.padCommand, ite_error_eq_ok, ne_eq, not_not] at h
  obtain ⟨hmode, hgvar, hvsel, h⟩ := h
  split at h
  · rename_i s hs
    cases h
    exact ⟨s, rfl, eq_optCode_of_ofCode hs, hmode, hgvar, hvsel⟩
  · cases h

/-- A VAL word selects a predicate and leaves the other fields 0. -/
theorem valCommand_eq_ok {f : Fields} {c : Command} (h : f.valCommand = .ok c) :
    ∃ p, c = .val p ∧ f.scheme = 0 ∧ f.mode = 0 ∧ f.gvar = 0 ∧ f.vsel = p.code := by
  simp only [Fields.valCommand, ite_error_eq_ok, ne_eq, not_not] at h
  obtain ⟨hscheme, hmode, hgvar, h⟩ := h
  split at h
  · rename_i p hp
    cases h
    exact ⟨p, rfl, hscheme, hmode, hgvar, eq_predCode_of_ofCode hp⟩
  · cases h

/-- An ENC or DEC word selects a mode and a scheme or NONE, or GCM and a variant. -/
theorem modeCommand_eq_ok {f : Fields} {k : BMode → Option Scheme → Command} {kGcm : GVar → Command}
    {c : Command} (h : f.modeCommand k kGcm = .ok c) : f.vsel = 0 ∧
      ((∃ m s, c = k m s ∧ f.mode = m.code ∧ f.scheme = Scheme.optCode s ∧ f.gvar = 0) ∨
       (∃ v, c = kGcm v ∧ f.mode = 5 ∧ f.scheme = 0 ∧ f.gvar = v.code)) := by
  simp only [Fields.modeCommand, ite_error_eq_ok, ne_eq, not_not] at h
  obtain ⟨hvsel, h⟩ := h
  refine ⟨hvsel, ?_⟩
  split at h
  case h_1 => cases h
  case h_2 hm =>
    obtain ⟨hscheme, h⟩ := ite_error_eq_ok.mp h
    split at h
    · rename_i v hv
      cases h
      exact .inr ⟨v, rfl, eq_five_of_ofCode hm, not_not.mp hscheme, eq_gvarCode_of_ofCode hv⟩
    · cases h
  case h_3 m hm =>
    obtain ⟨hgvar, h⟩ := ite_error_eq_ok.mp h
    split at h
    · rename_i s hs
      cases h
      exact .inl ⟨m, s, rfl, eq_modeCode_of_ofCode hm, eq_optCode_of_ofCode hs, not_not.mp hgvar⟩
    · cases h

/-- Fields that select a command are that command's. -/
theorem eq_fields_of_command {f : Fields} {c : Command} (h : f.command = .ok c) : f = c.fields := by
  simp only [Fields.command, ite_error_eq_ok, ne_eq, not_or, not_not] at h
  obtain ⟨⟨hlo, hhi⟩, h⟩ := h
  obtain ⟨op, scheme, mode, gvar, resLo, vsel, resHi⟩ := f
  cases hlo
  cases hhi
  split at h
  case h_1 hop =>
    cases BitVec.eq_of_toNat_eq (y := 1) hop
    obtain ⟨s, rfl, ⟨⟩, ⟨⟩, ⟨⟩, ⟨⟩⟩ := padCommand_eq_ok h
    rfl
  case h_2 hop =>
    cases BitVec.eq_of_toNat_eq (y := 2) hop
    obtain ⟨s, rfl, ⟨⟩, ⟨⟩, ⟨⟩, ⟨⟩⟩ := padCommand_eq_ok h
    rfl
  case h_3 hop =>
    cases BitVec.eq_of_toNat_eq (y := 3) hop
    obtain ⟨p, rfl, ⟨⟩, ⟨⟩, ⟨⟩, ⟨⟩⟩ := valCommand_eq_ok h
    rfl
  case h_4 hop =>
    cases BitVec.eq_of_toNat_eq (y := 4) hop
    obtain ⟨⟨⟩, ⟨m, s, rfl, ⟨⟩, ⟨⟩, ⟨⟩⟩ | ⟨v, rfl, ⟨⟩, ⟨⟩, ⟨⟩⟩⟩ := modeCommand_eq_ok h <;> rfl
  case h_5 hop =>
    cases BitVec.eq_of_toNat_eq (y := 5) hop
    obtain ⟨⟨⟩, ⟨m, s, rfl, ⟨⟩, ⟨⟩, ⟨⟩⟩ | ⟨v, rfl, ⟨⟩, ⟨⟩, ⟨⟩⟩⟩ := modeCommand_eq_ok h <;> rfl
  case h_6 => cases h

/-- A word decodes to a command exactly when its fields are the command's. -/
theorem decode_eq_ok_iff {w : Word} {i : Instr} : decode w = .ok i ↔ Fields.ofWord w = i.command.fields := by
  constructor
  · intro h
    rw [decode_eq] at h
    split at h
    · rename_i c hc
      cases h
      rw [command_instr]
      exact eq_fields_of_command hc
    · cases h
  · intro h
    rw [decode_eq, h, Machine.fields_command]
    exact congrArg _ (instr_command i)

/-- Decoding inverts encoding, and no word has two readings (30_encoding.md R81): a word and its fields
determine each other. -/
theorem decode_eq_ok_iff_eq_encode {w : Word} {i : Instr} : decode w = .ok i ↔ w = encode i := by
  rw [decode_eq_ok_iff]
  constructor
  · intro h
    rw [encode, ← h, toWord_ofWord]
  · rintro rfl
    exact ofWord_toWord _

/-! ### Legal fields (30_encoding.md R77) -/

/-- The values 1 to 7 of SCHEME are the schemes'. -/
theorem exists_schemeCode {c : BitVec 4} (hlo : 1 ≤ c.toNat) (hhi : c.toNat ≤ 7) : ∃ s, c = Scheme.code s := by
  have hof : ∀ n, 1 ≤ n → n ≤ 7 → ∃ s, BitVec.ofNat 4 n = Scheme.code s := by
    intro n hlo hhi
    interval_cases n
    exacts [⟨.zero, rfl⟩, ⟨.bit, rfl⟩, ⟨.pkcs7, rfl⟩, ⟨.pkcs5, rfl⟩, ⟨.x923, rfl⟩, ⟨.iso7816, rfl⟩,
      ⟨.iso10126, rfl⟩]
  simpa using hof c.toNat hlo hhi

/-- The values 0 to 7 of SCHEME are NONE's and the schemes'. -/
theorem exists_optCode {c : BitVec 4} (h : c.toNat ≤ 7) : ∃ k, c = Scheme.optCode k := by
  rcases Nat.eq_zero_or_pos c.toNat with hzero | hpos
  · exact ⟨none, BitVec.eq_of_toNat_eq hzero⟩
  · obtain ⟨s, hs⟩ := exists_schemeCode hpos h
    exact ⟨some s, hs⟩

theorem exists_modeCode {c : BitVec 4} (h : c.toNat ≤ 4) : ∃ m, c = BMode.code m := by
  have hof : ∀ n, n ≤ 4 → ∃ m, BitVec.ofNat 4 n = BMode.code m := by
    intro n h
    interval_cases n
    exacts [⟨.ecb, rfl⟩, ⟨.cbc, rfl⟩, ⟨.cfb, rfl⟩, ⟨.ofb, rfl⟩, ⟨.ctr, rfl⟩]
  simpa using hof c.toNat h

theorem exists_gvarCode {c : BitVec 2} (h : c.toNat ≤ 2) : ∃ v, c = GVar.code v := by
  have hof : ∀ n, n ≤ 2 → ∃ v, BitVec.ofNat 2 n = GVar.code v := by
    intro n h
    interval_cases n
    exacts [⟨.std, rfl⟩, ⟨.nonce, rfl⟩, ⟨.tag, rfl⟩]
  simpa using hof c.toNat h

theorem exists_predCode {c : BitVec 4} (h : c.toNat ≤ 9) : ∃ p, c = Pred.code p := by
  have hof : ∀ n, n ≤ 9 → ∃ p, BitVec.ofNat 4 n = Pred.code p := by
    intro n h
    interval_cases n
    exacts [⟨.keysize, rfl⟩, ⟨.blocksize, rfl⟩, ⟨.ivsize, rfl⟩, ⟨.iveq, rfl⟩, ⟨.ciphertext, rfl⟩,
      ⟨.stdnonce, rfl⟩, ⟨.noncesize, rfl⟩, ⟨.tagsize, rfl⟩, ⟨.datasize, rfl⟩, ⟨.empty, rfl⟩]
  simpa using hof c.toNat h

/-- The claims' `Legal(w)` is the model's condition on the fields of the word. -/
theorem legalWord_iff_legal (w : Word) : Machine.legalWord w ↔ (Fields.ofWord w).legal = true := by
  simp only [Machine.legalWord, Fields.legal, Fields.reservedZero, Fields.legalPad, Fields.legalVal,
    Fields.legalBlk, Fields.legalGcm, BitVec.toNat_eq, Bool.and_eq_true, Bool.or_eq_true, beq_iff_eq,
    decide_eq_true_eq, and_assoc, or_assoc]
  rfl

theorem fields_legal (c : Command) : c.fields.legal = true := by
  cases c with
  | pad s => cases s <;> rfl
  | unpad s => cases s <;> rfl
  | val p => cases p <;> rfl
  | enc m k => cases m <;> (cases k with | none => rfl | some k => cases k <;> rfl)
  | dec m k => cases m <;> (cases k with | none => rfl | some k => cases k <;> rfl)
  | encGcm v => cases v <;> rfl
  | decGcm v => cases v <;> rfl

/-- A legal word has the fields of a command: one line of R77 after the other. -/
theorem exists_fields_of_legalWord {w : Word} (h : Machine.legalWord w) :
    ∃ c, Fields.ofWord w = Command.fields c := by
  obtain ⟨⟨hlo, hhi⟩, hpad | hval | hblk | hgcm⟩ := h
  · obtain ⟨hop, hmin, hmax, hmode, hgvar, hvsel⟩ := hpad
    obtain ⟨s, hs⟩ := exists_schemeCode hmin hmax
    rcases hop with hop | hop
    · exact ⟨.pad s, by simp [Fields.ofWord, Command.fields, *]⟩
    · exact ⟨.unpad s, by simp [Fields.ofWord, Command.fields, *]⟩
  · obtain ⟨hop, hscheme, hmode, hgvar, hmax⟩ := hval
    obtain ⟨p, hp⟩ := exists_predCode hmax
    exact ⟨.val p, by simp [Fields.ofWord, Command.fields, *]⟩
  · obtain ⟨hop, hmode, hscheme, hgvar, hvsel⟩ := hblk
    obtain ⟨m, hm⟩ := exists_modeCode hmode
    obtain ⟨k, hk⟩ := exists_optCode hscheme
    rcases hop with hop | hop
    · exact ⟨.enc m k, by simp [Fields.ofWord, Command.fields, *]⟩
    · exact ⟨.dec m k, by simp [Fields.ofWord, Command.fields, *]⟩
  · obtain ⟨hop, hmode, hscheme, hmax, hvsel⟩ := hgcm
    obtain ⟨v, hv⟩ := exists_gvarCode hmax
    rcases hop with hop | hop
    · exact ⟨.encGcm v, by simp [Fields.ofWord, Command.fields, *]⟩
    · exact ⟨.decGcm v, by simp [Fields.ofWord, Command.fields, *]⟩

/-- A word is legal exactly when its fields are some command's. -/
theorem legalWord_iff_exists_fields (w : Word) :
    Machine.legalWord w ↔ ∃ c, Fields.ofWord w = Command.fields c :=
  ⟨exists_fields_of_legalWord, fun ⟨c, hc⟩ => (legalWord_iff_legal w).mpr (hc ▸ fields_legal c)⟩

/-- An illegal word does not decode. -/
theorem decode_of_not_legalWord {w : Word} (h : ¬ Machine.legalWord w) : ∃ e, decode w = .error e := by
  rcases hd : decode w with e | i
  · exact ⟨e, rfl⟩
  · exact absurd ((legalWord_iff_exists_fields w).mpr ⟨_, decode_eq_ok_iff.mp hd⟩) h

end Sys2Proof
end

section
/-! PROOFS. How the sequencer ends a command: an illegal word, and what a host can tell of an end or a wait
(30_encoding.md R78; 60_exceptions.md R246). -/

namespace Sys2Proof.Machine

/-- What OUTBUF reads as after a success of any length, OUT_LEN being 64 bits wide. -/
theorem outByte_finish_eq_ite (s : State) (out : Bytes) (k : Nat) :
    (finish s out).outByte k = if k < out.length % 2 ^ 64 then out.getD k 0 else 0 := by
  rw [State.outByte, finish_outLen, BitVec.toNat_ofNat]
  refine ite_congr rfl (fun hk => ?_) fun _ => rfl
  have hlt : k < out.length := Nat.lt_of_lt_of_le hk (Nat.mod_le _ _)
  rw [byteAt_finish_of_inside s out k hlt, List.getD_eq_getElem _ _ hlt]

/-- A word that does not decode fails (30_encoding.md R78). -/
theorem sequencerStep_illegal {s : State} {e : DecodeError} (h : s.busy = true) (hd : decode s.cmd = .error e) :
    sequencerStep s = .next (raiseErr s .illegalCommand s.cmd.toNat) := by
  simp [sequencerStep, h, State.latched, hd, illegalCommand]

theorem waitFor_request (s : State) (q : Request) :
    (waitFor s q).pending.map Outstanding.request = some q := by
  obtain ⟨o, n, heq, hreq, -⟩ := waitFor_eq s q
  rw [heq]
  exact congrArg some hreq

/-- What a host can tell of the end of a command, or of its wait, is the same in two states. -/
def sameOutcome (t t' : State) : Prop :=
  t.busy = t'.busy ∧
    (t.busy = false → t.err = t'.err ∧ t.errarg = t'.errarg ∧ t.outLen = t'.outLen ∧
      ∀ k, t.outByte k = t'.outByte k) ∧
    (t.busy = true → t.pending.map Outstanding.request = t'.pending.map Outstanding.request)

/-- What the run of a pseudocode shows does not depend on the state it ends in. -/
theorem sameOutcome_conclude {s s' : State} (hb : s.busy = true) (hb' : s'.busy = true) (c : Cmd Bytes) :
    sameOutcome (conclude s c) (conclude s' c) := by
  rcases c with (⟨code, arg⟩ | q) | out
  · exact ⟨rfl, fun _ => ⟨rfl, rfl, rfl, fun _ => rfl⟩, nofun⟩
  · refine ⟨by simp [hb, hb'], fun hidle => ?_, fun _ => ?_⟩
    · simp [hb] at hidle
    · simp [waitFor_request]
  · exact ⟨rfl, fun _ => ⟨rfl, rfl, rfl, fun k => by simp [outByte_finish_eq_ite]⟩, nofun⟩

end Sys2Proof.Machine
end

section
/-! PROOFS. The obligations of 30_encoding.md about command words and operands, from the lemmas above. -/

namespace Sys2Proof.Proofs

open Sys2Proof.Machine

/-- Settles O6: decoding and encoding both go by the fields. -/
theorem decodeIffEncode : Obligations.DecodeIffEncode :=
  fun _ _ => decode_eq_ok_iff_eq_encode

/-- Settles O58: the pseudocode is the same in both states, and what it shows is the pseudocode's. -/
theorem outcomeDependsOnOperandsOnly : Obligations.OutcomeDependsOnOperandsOnly := by
  intro i s s' hop hcap hans hb hb'
  have hbody : Command.body i.command s = Command.body i.command s' :=
    body_congr (by rwa [instr_command]) hcap hans
  refine ⟨_, _, exec_eq i s, exec_eq i s', ?_⟩
  rw [hbody]
  exact sameOutcome_conclude hb hb' _

/-- Settles O7: decoding and `Legal` both say that the word's fields are a command's. -/
theorem decodeIffLegal : Obligations.DecodeIffLegal := by
  intro w
  rw [legalWord_iff_exists_fields]
  constructor
  · rintro ⟨i, hi⟩
    exact ⟨i.command, decode_eq_ok_iff.mp hi⟩
  · rintro ⟨c, hc⟩
    exact ⟨c.instr, decode_eq_ok_iff.mpr (by rw [hc, command_instr])⟩

/-- Settles O5: an illegal word does not decode, so the sequencer fails it. -/
theorem illegalWordFails : Obligations.IllegalWordFails := by
  intro s ts hturn hb hillegal
  obtain ⟨e, he⟩ := decode_of_not_legalWord hillegal
  rw [← BitVec.ofNat_toNat]
  exact (step_sequencer hturn).trans (sequencerStep_illegal hb he)

/-- Settles O8: each of the words is its command's code. -/
theorem decodeTableSample : Obligations.DecodeTableSample := by
  unfold Obligations.DecodeTableSample
  simp only [decode_eq_ok_iff_eq_encode]
  decide

end Sys2Proof.Proofs
end

section
/-! PROOFS. The bus accesses of a LOAD (30_encoding.md R85): its word writes into the buffer, then the two
halves of its length register. -/

namespace Sys2Proof.Machine

/-! ### Runs -/

theorem run_succ_of_next (M : Host.Core) (n : Nat) {s t : M.State} (h : M.step s = .next t) :
    M.run (n + 1) s = M.run n t := by
  rw [Host.Core.run, h]

/-- The first steps of a run can be made apart. -/
theorem run_add_of_next (M : Host.Core) {n : Nat} (k : Nat) {s t : M.State} (h : M.run n s = .next t) :
    M.run (n + k) s = M.run k t := by
  induction n generalizing s with
  | zero => cases h; rw [Nat.zero_add]
  | succ n ih =>
    rw [Host.Core.run] at h
    rw [Nat.succ_add, Host.Core.run]
    split at h
    · exact ih h
    · cases h
    · cases h

/-- PADMODE's next step, and then the rest of its run. -/
theorem run_succ_of_step (n : Nat) {s t : State} (h : step s = .next t) :
    Host.Core.run Sys2Proof.core (n + 1) s = Host.Core.run Sys2Proof.core n t :=
  run_succ_of_next Sys2Proof.core n h

/-! ### The words of a LOAD (20_memory.md R54) -/

/-- Byte `j` of the little-endian word of the bytes from `i` on. -/
theorem leWord_drop_byte (bytes : Bytes) {i j : Nat} (hj : j < 4) :
    (leWord (bytes.drop i)).extractLsb' (8 * j) 8 = bytes.getD (i + j) 0 := by
  have hget (n : Nat) : (bytes.drop i).getD n 0 = bytes.getD (i + n) 0 := by simp [List.getD]
  apply BitVec.eq_of_toNat_eq
  simp only [leWord, hget, BitVec.extractLsb'_toNat, toNat_append_eq_add, Nat.shiftRight_eq_div_pow]
  interval_cases j <;> omega

@[simp] theorem loadWords_length (base off : Nat) (bytes : Bytes) (k n : Nat) :
    (loadWords base off bytes k n).length = n := by
  induction n generalizing k with
  | zero => rfl
  | succ n ih => simp [loadWords, ih]

/-- The buffers of a LOAD are regions 1 to 4 (20_memory.md R51). -/
theorem loadBuf_base (b : LoadBuf) : ∃ r, 1 ≤ r ∧ r ≤ 4 ∧ b.buf.base = r * 2 ^ 28 := by
  cases b
  exacts [⟨1, by decide⟩, ⟨2, by decide⟩, ⟨3, by decide⟩, ⟨4, by decide⟩]

/-- One word write of a LOAD: the bytes below BUF_CAP that it covers are those of its number. -/
theorem step_loadWord {s : State} {b : LoadBuf} {bytes : Bytes} {k : Nat} {ts : List Turn} (hb : s.busy = false)
    (hk : 4 * (k + 1) ≤ 2 ^ 28)
    (h : s.turns = .host (writeAt s.params.base (b.buf.base + 4 * k) (leWord (bytes.drop (4 * k)))) :: ts) :
    ∃ m, step s = .next { s with turns := ts, mem := m, reply := some .written } ∧
      ∀ a, ({ s with mem := m } : State).byteAt a =
        if b.buf.base + 4 * k ≤ a ∧ a < b.buf.base + 4 * (k + 1) ∧ a % 2 ^ 28 < s.params.bufCap
        then bytes.getD (a - b.buf.base) 0 else s.byteAt a := by
  obtain ⟨r, hlo, hhi, hbase⟩ := loadBuf_base b
  obtain ⟨m, hstep, hbyte⟩ := Proofs.bufferWrites s (b.buf.base + 4 * k) .word _ ts hb ⟨by omega, h⟩
    (.inl ⟨rfl, by omega⟩) (by omega)
  refine ⟨m, hstep, fun a => (hbyte a).trans ?_⟩
  have hbytes : Width.word.bytes = 4 := rfl
  rw [hbytes]
  by_cases hcover : b.buf.base + 4 * k ≤ a ∧ a < b.buf.base + 4 * (k + 1) ∧ a % 2 ^ 28 < s.params.bufCap
  · rw [if_pos hcover, if_pos (by omega), leWord_drop_byte bytes (by omega)]
    congr 1
    omega
  · rw [if_neg hcover, if_neg (by omega)]

/-- The word writes of a LOAD from word `k` on: the bytes below BUF_CAP that they cover are those of their
numbers, and nothing else changes but the reply. -/
theorem run_loadWords {b : LoadBuf} {bytes : Bytes} {ts : List Turn} (n k : Nat) (s : State)
    (hb : s.busy = false) (hk : 4 * (k + n) ≤ 2 ^ 28)
    (h : s.turns = (loadWords s.params.base b.buf.base bytes k n).map .host ++ ts) :
    ∃ m r, Host.Core.run Sys2Proof.core n s = .next { s with turns := ts, mem := m, reply := r } ∧
      ∀ a, ({ s with mem := m } : State).byteAt a =
        if b.buf.base + 4 * k ≤ a ∧ a < b.buf.base + 4 * (k + n) ∧ a % 2 ^ 28 < s.params.bufCap
        then bytes.getD (a - b.buf.base) 0 else s.byteAt a := by
  induction n generalizing k s with
  | zero =>
    cases h
    exact ⟨s.mem, s.reply, rfl, fun a => by rw [if_neg (by omega)]⟩
  | succ n ih =>
    obtain ⟨m, hstep, hbyte⟩ := step_loadWord hb (by omega) h
    obtain ⟨m', r, hrun, hbyte'⟩ := ih (k + 1) { s with
      turns := (loadWords s.params.base b.buf.base bytes (k + 1) n).map .host ++ ts
      mem := m
      reply := some .written } hb (by omega) rfl
    refine ⟨m', r, (run_succ_of_step n hstep).trans hrun, fun a => (hbyte' a).trans ?_⟩
    refine (if_congr Iff.rfl rfl (hbyte a)).trans ?_
    refine (ite_or ..).symm.trans (if_congr ?_ rfl rfl)
    dsimp only
    omega

/-! ### The length register of a LOAD (20_memory.md R55) -/

/-- The two halves of a value make it up. -/
theorem setHi_setLo (d v : DWord) : setHi (setLo d (loHalf v)) (hiHalf v) = v := by
  apply BitVec.eq_of_toNat_eq
  simp only [setHi, setLo, loHalf, hiHalf, toNat_append_eq_add, BitVec.extractLsb'_toNat,
    Nat.shiftRight_eq_div_pow]
  omega

/-- A register write while Idle, and then the rest of the run. -/
theorem run_writeReg {s : State} {r : Reg} {v : Word} {ts : List Turn} (n : Nat) (hb : s.busy = false)
    (h : s.turns = .host (writeAt s.params.base r.offset v) :: ts) :
    Host.Core.run Sys2Proof.core (n + 1) s =
      Host.Core.run Sys2Proof.core n { writeReg s v r with turns := ts, reply := some .written } := by
  have hlt : r.offset < 2 ^ 32 := by have := reg_offset_lt r; omega
  exact run_succ_of_step n (step_writeReg hb ⟨hlt, h⟩)

/-- The two writes of a `WR64` to the length register of a LOAD put the value in it. -/
theorem run_write64_lenReg {s : State} {b : LoadBuf} {v : DWord} {ts : List Turn} (hb : s.busy = false)
    (h : s.turns = (write64 s.params.base b.lenReg v).map .host ++ ts) :
    Host.Core.run Sys2Proof.core 2 s = .next
      { s with
        turns  := ts
        reply  := some .written
        inLen  := if b = .input then v else s.inLen
        keyLen := if b = .key then v else s.keyLen
        ivLen  := if b = .iv then v else s.ivLen
        aadLen := if b = .aad then v else s.aadLen } := by
  refine (run_writeReg 1 hb h).trans ?_
  cases b
  all_goals
    refine (run_writeReg 0 (by exact hb) (by exact rfl)).trans ?_
    simp [Host.Core.run, LoadBuf.lenReg, Reg64.lo, Reg64.hi, writeReg, setHi_setLo]

end Sys2Proof.Machine
end

section
/-! PROOFS. The obligation of 30_encoding.md about LOAD, from the lemmas above. -/

namespace Sys2Proof.Proofs

open Sys2Proof.Machine

/-- Settles O19: the word writes put the bytes in the buffer, the two register writes their number. -/
theorem loadPutsOperand : Obligations.LoadPutsOperand := by
  intro s b bytes ts hb hlen hcap h
  obtain ⟨region, hlo, hhi, hbase⟩ := loadBuf_base b
  have hlength : ((HostAction.load b bytes).turns s.params.base).length = (bytes.length + 3) / 4 + 2 := by
    simp [HostAction.turns, HostAction.expand, write64]
  simp only [HostAction.turns, HostAction.expand, List.map_append, List.append_assoc] at h
  obtain ⟨m, reply, hrun, hbyte⟩ := run_loadWords ((bytes.length + 3) / 4) 0 s hb (by omega) h
  refine ⟨m, ?_, ?_, fun a ha => ?_⟩
  · rw [hlength]
    exact (run_add_of_next Sys2Proof.core 2 hrun).trans (run_write64_lenReg (by exact hb) (by exact rfl))
  · refine List.ext_getElem (by simp) fun k hk hk' => ?_
    rw [view_getElem, hbyte, if_pos (by omega)]
    simp [hk']
  · rw [hbyte, if_neg (by omega)]

end Sys2Proof.Proofs
end

section
/-! PROOFS. The commands PAD and UNPAD by their checks, and the trailer of a PAD that succeeds
(40_padding.md R100 to R102, R105, R112). -/

namespace Sys2Proof.Machine

/-! ### The checks, in their order -/

/-- The pseudocode and the claims write the same block size (40_padding.md R101). -/
theorem padB_blksz (k : Scheme) (s : State) : padB k s.blksz.toNat = padSize k s := by
  cases k <;> rfl

theorem ovh_padSize (k : Scheme) (s : State) : ovh s.inLen.toNat (padSize k s) = padOvh k s := rfl

/-- The block size of a padding fits a byte, so its overhead does. -/
theorem padSize_le (k : Scheme) (s : State) : padSize k s ≤ 255 := by
  have := s.blksz.isLt
  unfold padSize
  split <;> omega

/-- The overhead is between 1 and the block size (40_padding.md R100). -/
theorem padOvh_bounds {k : Scheme} {s : State} (h : padSize k s ≠ 0) :
    1 ≤ padOvh k s ∧ padOvh k s ≤ padSize k s :=
  ovh_bounds s.inLen.toNat (padSize k s) (Nat.pos_of_ne_zero h)

/-- `PadCmd` as one chain of conditions (40_padding.md R105). -/
theorem padCmd_eq (k : Scheme) (s : State) :
    padCmd k s =
      if s.inLen.toNat = 0 then raise .emptyData 0
      else if padSize k s = 0 then raise .invalidBlockSize 0
      else if s.params.bufCap < s.inLen.toNat then raise .capacityExceeded s.inLen.toNat
      else if s.params.bufCap < s.inLen.toNat + padOvh k s then
        raise .capacityExceeded (s.inLen.toNat + padOvh k s)
      else trailer s k (padOvh k s) >>= fun t => .ok (s.inBytes ++ t) := by
  simp only [padCmd, padEmptyCheck, padBlockCheck, capCheck, padB_blksz, ovh_padSize, gt_iff_lt]
  split_ifs <;> rfl

/-- `UnpadCmd` as one chain of conditions (40_padding.md R112). -/
theorem unpadCmd_eq (k : Scheme) (s : State) :
    unpadCmd k s =
      if s.inLen.toNat = 0 then raise .emptyData 0
      else if padSize k s = 0 then raise .invalidBlockSize 0
      else if s.inLen.toNat % padSize k s ≠ 0 then raise .invalidData s.inLen.toNat
      else if s.params.bufCap < s.inLen.toNat then raise .capacityExceeded s.inLen.toNat
      else stripOr k s.inBytes (padSize k s) := by
  simp only [unpadCmd, padEmptyCheck, padBlockCheck, unpadAlignCheck, capCheck, padB_blksz, gt_iff_lt]
  split_ifs <;> rfl

theorem exec_pad (k : Scheme) (s : State) :
    exec (Command.pad k).instr s = .next (conclude s (padCmd k s)) :=
  exec_instr _ s

theorem exec_unpad (k : Scheme) (s : State) :
    exec (Command.unpad k).instr s = .next (conclude s (unpadCmd k s)) :=
  exec_instr _ s

/-- PAD past its checks is its trailer (40_padding.md R105). -/
theorem exec_pad_of_fits {k : Scheme} {s : State} (hn : s.inLen.toNat ≠ 0) (hb : padSize k s ≠ 0)
    (hcap : s.inLen.toNat + padOvh k s ≤ s.params.bufCap) :
    exec (Command.pad k).instr s =
      .next (conclude s (trailer s k (padOvh k s) >>= fun t => .ok (s.inBytes ++ t))) := by
  rw [exec_pad, padCmd_eq, if_neg hn, if_neg hb, if_neg (by omega), if_neg (by omega)]

/-- UNPAD past its checks is `Strip` (40_padding.md R112). -/
theorem exec_unpad_of_ready {k : Scheme} {s : State} (h : unpadReady k s) :
    exec (Command.unpad k).instr s = .next (conclude s (stripOr k s.inBytes (padSize k s))) := by
  obtain ⟨hn, hb, halign, hcap⟩ := h
  rw [exec_unpad, unpadCmd_eq, if_neg hn, if_neg hb, if_neg (not_not.mpr halign), if_neg (by omega)]

theorem exec_unpad_of_strip_eq_some {k : Scheme} {s : State} {out : Bytes} (h : unpadReady k s)
    (hs : strip k s.inBytes (padSize k s) = some out) :
    exec (Command.unpad k).instr s = .next (finish s out) := by
  rw [exec_unpad_of_ready h, stripOr, hs]
  rfl

theorem exec_unpad_of_strip_eq_none {k : Scheme} {s : State} (h : unpadReady k s)
    (hs : strip k s.inBytes (padSize k s) = none) :
    exec (Command.unpad k).instr s = .next (raiseErr s .invalidData s.inLen.toNat) := by
  rw [exec_unpad_of_ready h, stripOr, hs, inBytes_length]
  rfl

/-- Where `Strip` is one condition, so is the end of UNPAD past its checks. -/
theorem exec_unpad_of_strip_eq_ite {k : Scheme} {s : State} {p : Prop} {_ : Decidable p} {out : Bytes}
    (h : unpadReady k s) (hs : strip k s.inBytes (padSize k s) = if p then some out else none) :
    (p → exec (Command.unpad k).instr s = .next (finish s out)) ∧
      (¬ p → exec (Command.unpad k).instr s = .next (raiseErr s .invalidData s.inLen.toNat)) :=
  ⟨fun hp => exec_unpad_of_strip_eq_some h (hs.trans (if_pos hp)),
    fun hp => exec_unpad_of_strip_eq_none h (hs.trans (if_neg hp))⟩

/-! ### The trailer of a PAD that succeeds -/

theorem trailerBytes_length {k : Scheme} {ov : Nat} {r : Bytes} (hov : 1 ≤ ov) (hr : r.length = ov - 1) :
    (trailerBytes k ov r).length = ov := by
  cases k
  case iso10126 => by_cases h1 : ov = 1 <;> simp [trailerBytes, h1, hr]; omega
  all_goals simp [trailerBytes]
  all_goals omega

/-- IN and a trailer are as long as IN and the overhead together. -/
theorem inBytes_append_trailer_length {k : Scheme} {s : State} {r : Bytes} (hb : padSize k s ≠ 0)
    (hr : r.length = padOvh k s - 1) :
    (s.inBytes ++ trailerBytes k (padOvh k s) r).length = s.inLen.toNat + padOvh k s := by
  rw [List.length_append, inBytes_length, trailerBytes_length (padOvh_bounds hb).1 hr]

/-- Without a filler to ask for, the trailer is the table's (40_padding.md R102). -/
theorem trailer_of_no_filler (s : State) {k : Scheme} {ov : Nat} (h : k = .iso10126 → ov = 1) :
    trailer s k ov = .ok (trailerBytes k ov []) := by
  cases k
  case iso10126 => rw [h rfl]; rfl
  all_goals rfl

/-- With a filler, the trailer is the answer of the randomness source and the count (40_padding.md R102). -/
theorem trailer_of_filler (s : State) {ov : Nat} (h : ov ≠ 1) :
    trailer s .iso10126 ov = askBytes s (.rngFill (ov - 1)) .entropyError (ov - 1) >>= fun r =>
      .ok (r ++ [BitVec.ofNat 8 ov]) :=
  if_neg h

theorem length_of_ask_rngFill {s : State} {n : Nat} {r : Bytes} (h : s.ask (.rngFill n) = some (.bytes r)) :
    r.length = n := by
  simpa [Request.fits] using ask_fits h

/-- A trailer is always an entry of the table, for some filler of the right length. -/
theorem exists_filler_of_trailer_eq_ok {s : State} {k : Scheme} {ov : Nat} {t : Bytes}
    (h : trailer s k ov = .ok t) : ∃ r, r.length = ov - 1 ∧ t = trailerBytes k ov r := by
  by_cases hfill : k = .iso10126 ∧ ov ≠ 1
  · obtain ⟨rfl, h1⟩ := hfill
    rw [trailer_of_filler s h1] at h
    obtain ⟨r, hask, ht⟩ := cmd_bind_eq_ok.mp h
    rcases askBytes_cases s (.rngFill (ov - 1)) .entropyError (ov - 1) with
      ⟨-, he⟩ | ⟨r', hr', he⟩ | ⟨a, -, -, he⟩ <;> cases he.symm.trans hask
    cases ht
    exact ⟨r, length_of_ask_rngFill hr', by simp [trailerBytes, h1]⟩
  · refine ⟨List.replicate (ov - 1) 0, List.length_replicate, ?_⟩
    rw [trailer_of_no_filler s fun hk => by_contra fun h1 => hfill ⟨hk, h1⟩] at h
    cases h
    cases k
    case iso10126 => simp [trailerBytes, not_not.mp fun h1 => hfill ⟨rfl, h1⟩]
    all_goals rfl

/-- Pseudocode that starts with a check succeeds where the check and the rest do. -/
theorem ite_raise_eq_ok {α : Type} {p : Prop} [Decidable p] {code : Code} {arg : Nat} {c : Cmd α} {a : α} :
    (if p then raise code arg else c) = .ok a ↔ ¬ p ∧ c = .ok a := by
  split <;> simp [raise, *]

/-- A pseudocode whose end is a completed success has given an output. -/
theorem eq_ok_of_conclude {s : State} {c : Cmd Bytes} (hgood : GoodEnd s c) (hbusy : s.busy = true)
    (hidle : (conclude s c).busy = false) (hok : (conclude s c).err = .ok) : ∃ out, c = .ok out := by
  rcases hgood with ⟨out, rfl, -⟩ | ⟨code, arg, hcode, rfl⟩ | ⟨q, -, rfl⟩
  · exact ⟨out, rfl⟩
  · exact absurd hok hcode
  · rw [conclude_wait, waitFor_busy, hbusy] at hidle
    cases hidle

/-- A PAD command that succeeds has passed its checks and put out IN and a trailer of the table. -/
theorem pad_success {k : Scheme} {s t : State} (hbusy : s.busy = true)
    (h : exec (Command.pad k).instr s = .next t) (hidle : t.busy = false) (hok : t.err = .ok) :
    s.inLen.toNat ≠ 0 ∧ padSize k s ≠ 0 ∧ s.inLen.toNat + padOvh k s ≤ s.params.bufCap ∧
      ∃ r, r.length = padOvh k s - 1 ∧ t = finish s (s.inBytes ++ trailerBytes k (padOvh k s) r) := by
  rw [exec_pad] at h
  cases h
  obtain ⟨out, hout⟩ := eq_ok_of_conclude (padCmd_goodEnd k s) hbusy hidle hok
  rw [hout]
  simp only [padCmd_eq, ite_raise_eq_ok] at hout
  obtain ⟨hn, hb, -, hcap, hout⟩ := hout
  obtain ⟨t, ht, hcat⟩ := cmd_bind_eq_ok.mp hout
  obtain ⟨r, hr, rfl⟩ := exists_filler_of_trailer_eq_ok ht
  cases hcat
  exact ⟨hn, hb, Nat.le_of_not_lt hcap, r, hr, rfl⟩

end Sys2Proof.Machine
end

section
/-! PROOFS. `Strip`, scheme by scheme: what it accepts, what it drops, and that it undoes the trailer
(40_padding.md R103, R113 to R118, R120). -/

namespace Sys2Proof.Machine

/-! ### Trailing zeros: ZERO and BIT -/

/-- The byte before the zeros ends their removal. -/
theorem dropZerosReversed_concat (d : Bytes) {x : Byte} (hx : x ≠ 0x00) :
    dropZerosReversed (d ++ [x]) = x :: d.reverse := by
  simpa [dropZerosReversed] using hx

theorem dropZerosReversed_append_zeros (d : Bytes) (n : Nat) :
    dropZerosReversed (d ++ List.replicate n 0x00) = dropZerosReversed d := by
  rw [dropZerosReversed, List.reverse_append, List.reverse_replicate,
    List.dropWhile_append_of_pos fun x hx => by simp [List.eq_of_mem_replicate hx]]
  rfl

/-- What is removed is zeros. -/
theorem exists_zeros_removed (d : Bytes) : ∃ z, d = (dropZerosReversed d).reverse ++ List.replicate z 0x00 := by
  induction d using List.reverseRecOn with
  | nil => exact ⟨0, rfl⟩
  | append_singleton d x ih =>
    by_cases hx : x = 0x00
    · obtain ⟨z, hz⟩ := ih
      have hdrop : dropZerosReversed (d ++ [0x00]) = dropZerosReversed d := dropZerosReversed_append_zeros d 1
      refine ⟨z + 1, ?_⟩
      rw [hx, hdrop, List.replicate_succ', ← List.append_assoc, ← hz]
    · exact ⟨0, by simp [dropZerosReversed_concat d hx]⟩

/-- Nothing is removed exactly from data that does not end in a zero. -/
theorem reverse_dropZerosReversed_eq_self_iff (d : Bytes) :
    (dropZerosReversed d).reverse = d ↔ d.getLast? ≠ some 0x00 := by
  rw [dropZerosReversed, List.reverse_eq_iff, List.dropWhile_eq_self_iff]
  rcases List.eq_nil_or_concat' d with rfl | ⟨d, x, rfl⟩ <;> simp

/-- Data whose bytes from `m` on are zeros is its first `m` bytes and zeros. -/
theorem eq_take_append_zeros {d : Bytes} {m : Nat} (hm : m ≤ d.length)
    (hz : ∀ j, m ≤ j → j < d.length → d.getD j 0 = 0x00) :
    d = d.take m ++ List.replicate (d.length - m) 0x00 := by
  have hdrop : d.drop m = List.replicate (d.length - m) 0x00 := by
    refine List.ext_getElem (by simp) fun j hj _ => ?_
    rw [List.length_drop] at hj
    have := hz (m + j) (by omega) (by omega)
    rw [List.getD_eq_getElem _ _ (by omega)] at this
    simpa using this
  rw [← hdrop, List.take_append_drop]

theorem reverse_take_succ {d : Bytes} {m : Nat} (hm : m < d.length) :
    (d.take (m + 1)).reverse = d.getD m 0 :: (d.take m).reverse := by
  rw [List.getD_eq_getElem _ _ hm, ← List.take_append_getElem hm, List.reverse_concat]

/-- What is left of data is what stands before its last zeros. -/
theorem dropZerosReversed_eq_take {d : Bytes} {m : Nat} (hm : m ≤ d.length)
    (hz : ∀ j, m ≤ j → j < d.length → d.getD j 0 = 0x00) (hlast : m = 0 ∨ d.getD (m - 1) 0 ≠ 0x00) :
    dropZerosReversed d = (d.take m).reverse := by
  conv_lhs => rw [eq_take_append_zeros hm hz, dropZerosReversed_append_zeros]
  cases m with
  | zero => rfl
  | succ m =>
    have hne : d.getD m 0 ≠ 0x00 := hlast.resolve_left m.succ_ne_zero
    rw [reverse_take_succ hm, ← List.take_append_getElem hm, ← List.getD_eq_getElem _ 0 hm,
      dropZerosReversed_concat _ hne]

theorem strip_zero_of_take {d : Bytes} {m : Nat} (h : dropZerosReversed d = (d.take m).reverse) (b : Nat) :
    strip .zero d b = some (d.take m) := by
  rw [strip, h, List.reverse_reverse]

/-- BIT looks at the byte before the zeros (40_padding.md R113). -/
theorem strip_bit_of_take {d : Bytes} {m : Nat} (hm : m ≤ d.length) (h : dropZerosReversed d = (d.take m).reverse)
    (b : Nat) :
    strip .bit d b = if m ≠ 0 ∧ d.getD (m - 1) 0 = 0x80 then some (d.take (m - 1)) else none := by
  cases m with
  | zero => simp [strip, h]
  | succ m => simp [strip, h, reverse_take_succ hm]

/-! ### The count byte: PKCS7, PKCS5, X923 and ISO10126 -/

theorem countByte_eq (d : Bytes) : countByte d = d.getD (d.length - 1) 0 := by
  rw [countByte, List.getLastD_eq_getLast?, List.getLast?_eq_getElem?, List.getD_eq_getElem?_getD]

@[simp] theorem countByte_concat (d : Bytes) (c : Byte) : countByte (d ++ [c]) = c := by
  simp [countByte]

/-- A check of the bytes of a range is a check of each of them. -/
theorem all_take_drop_iff (d : Bytes) (lo n : Nat) (p : Byte → Bool) :
    ((d.drop lo).take n).all p = true ↔
      ∀ j, lo ≤ j → j < lo + n → j < d.length → p (d.getD j 0) = true := by
  rw [List.all_eq_true, List.forall_mem_iff_getElem]
  constructor
  · intro h j hlo hn hj
    have := h (j - lo) (by simp; omega)
    simpa [Nat.add_sub_cancel' hlo, hj] using this
  · intro h j hj
    simp only [List.length_take, List.length_drop] at hj
    have := h (lo + j) (by omega) (by omega) (by omega)
    rw [List.getD_eq_getElem _ _ (by omega)] at this
    simpa using this

/-- What PKCS7 and PKCS5 ask of data whose last byte is the count `c` (40_padding.md R114). -/
def pkcs7Accepts (d : Bytes) (c : Nat) : Prop :=
  c ≠ 0 ∧ c ≤ d.length ∧ ∀ j, d.length - c ≤ j → j < d.length → (d.getD j 0).toNat = c

/-- What X923 asks of data whose last byte is the count `c` (40_padding.md R116). -/
def x923Accepts (d : Bytes) (c : Nat) : Prop :=
  c ≠ 0 ∧ c ≤ d.length ∧ ∀ j, d.length - c ≤ j → j < d.length - 1 → d.getD j 0 = 0x00

/-- The checks of a count and then of the bytes it covers are one condition. -/
theorem ite_count_eq {c n : Nat} {p a : Prop} [Decidable p] [Decidable a] {out : Bytes}
    (h : a ↔ c ≠ 0 ∧ c ≤ n ∧ p) :
    (if c = 0 ∨ c > n then none else if p then some out else none) = if a then some out else none := by
  by_cases hc : c = 0 ∨ c > n
  · rw [if_pos hc, if_neg fun ha => by have := h.mp ha; omega]
  · rw [if_neg hc]
    exact if_congr ⟨fun hp => h.mpr ⟨by omega, by omega, hp⟩, fun ha => (h.mp ha).2.2⟩ rfl rfl

/-- A count or a byte that fails its check is not accepted. -/
theorem not_accepts_of_reject {c n lo hi : Nat} {p : Nat → Prop}
    (h : c = 0 ∨ n < c ∨ ∃ j, lo ≤ j ∧ j < hi ∧ ¬ p j) :
    ¬ (c ≠ 0 ∧ c ≤ n ∧ ∀ j, lo ≤ j → j < hi → p j) := by
  rintro ⟨h0, hle, hall⟩
  obtain hzero | hlong | ⟨j, hlo, hj, hne⟩ := h
  · exact h0 hzero
  · exact absurd hle (Nat.not_le.mpr hlong)
  · exact hne (hall j hlo hj)

theorem pkcs7Accepts_iff (d : Bytes) :
    pkcs7Accepts d (countByte d).toNat ↔ (countByte d).toNat ≠ 0 ∧ (countByte d).toNat ≤ d.length ∧
      (d.drop (d.length - (countByte d).toNat)).all (fun x => x == countByte d) = true := by
  refine and_congr_right fun _ => and_congr_right fun hle => ?_
  rw [← (d.drop _).take_of_length_le (i := (countByte d).toNat) (by simp; omega), all_take_drop_iff]
  refine forall₂_congr fun j hlo => ?_
  rw [beq_iff_eq, ← BitVec.toNat_inj]
  exact ⟨fun h _ hj => h hj, fun h hj => h (by omega) hj⟩

theorem x923Accepts_iff (d : Bytes) :
    x923Accepts d (countByte d).toNat ↔ (countByte d).toNat ≠ 0 ∧ (countByte d).toNat ≤ d.length ∧
      ((d.drop (d.length - (countByte d).toNat)).take ((countByte d).toNat - 1)).all (fun x => x == 0x00) = true := by
  refine and_congr_right fun h0 => and_congr_right fun hle => ?_
  rw [all_take_drop_iff]
  refine forall₂_congr fun j hlo => ?_
  rw [beq_iff_eq]
  exact ⟨fun h hj _ => h (by omega), fun h hj => h (by omega) (by omega)⟩

open scoped Classical in
theorem strip_pkcs7 {k : Scheme} (hk : k = .pkcs7 ∨ k = .pkcs5) (d : Bytes) (b : Nat) :
    strip k d b = if pkcs7Accepts d (countByte d).toNat then some (d.take (d.length - (countByte d).toNat))
      else none := by
  rcases hk with rfl | rfl <;> exact ite_count_eq (pkcs7Accepts_iff d)

open scoped Classical in
theorem strip_x923 (d : Bytes) (b : Nat) :
    strip .x923 d b = if x923Accepts d (countByte d).toNat then some (d.take (d.length - (countByte d).toNat))
      else none :=
  ite_count_eq (x923Accepts_iff d)

/-- ISO10126 checks its count alone (40_padding.md R118). -/
theorem strip_iso10126 (d : Bytes) (b : Nat) :
    strip .iso10126 d b = if (countByte d).toNat ≤ d.length ∧ (countByte d).toNat ≤ b then
      some (d.take (d.length - (countByte d).toNat)) else none := by
  simp only [strip, gt_iff_lt, ← Nat.not_le, ← not_and_or, ite_not]

/-! ### The backward scan: ISO7816 -/

/-- The scan finds the last 0x80 of its range. -/
theorem scanBack_eq_some {d : Bytes} {lo k i : Nat} (hlo : lo ≤ i) (hi : i < lo + k) (hmark : d.getD i 0 = 0x80)
    (hlast : ∀ j, i < j → j < lo + k → d.getD j 0 ≠ 0x80) : scanBack d lo k = some i := by
  induction k with
  | zero => omega
  | succ k ih =>
    rw [scanBack]
    rcases Nat.lt_or_ge i (lo + k) with hlt | hge
    · rw [if_neg (hlast _ hlt (by omega))]
      exact ih hlt fun j hij hj => hlast j hij (by omega)
    · obtain rfl : i = lo + k := by omega
      exact if_pos hmark

/-- The scan finds nothing exactly where its range has no 0x80. -/
theorem scanBack_eq_none_iff {d : Bytes} {lo k : Nat} :
    scanBack d lo k = none ↔ ∀ i, lo ≤ i → i < lo + k → d.getD i 0 ≠ 0x80 := by
  induction k with
  | zero => exact iff_of_true rfl fun i hlo hi => by omega
  | succ k ih =>
    rw [scanBack]
    by_cases hmark : d.getD (lo + k) 0 = 0x80
    · rw [if_pos hmark]
      exact iff_of_false (Option.some_ne_none _) fun h => h _ (by omega) (by omega) hmark
    · rw [if_neg hmark, ih]
      refine forall₂_congr fun i hlo => ⟨fun h hi => ?_, fun h hi => h (by omega)⟩
      rcases Nat.lt_or_ge i (lo + k) with hlt | hge
      · exact h hlt
      · obtain rfl : i = lo + k := by omega
        exact hmark

theorem strip_iso7816 (d : Bytes) (b : Nat) :
    strip .iso7816 d b = (scanBack d (d.length - b) b).map d.take := by
  rw [strip]
  cases scanBack d (d.length - b) b <;> rfl

/-! ### The removal undoes the trailer (40_padding.md R120) -/

/-- What a scheme with a count drops of data and a trailer of that many bytes is the trailer. -/
theorem take_append_trailer {d t : Bytes} {c : Nat} (h : t.length = c) :
    (d ++ t).take ((d ++ t).length - c) = d := by
  rw [List.length_append, h, Nat.add_sub_cancel, List.take_left]

/-- The schemes whose trailer ends in its length read that length as their count. -/
theorem countByte_append_trailer {k : Scheme} (hk : k = .pkcs7 ∨ k = .pkcs5 ∨ k = .x923 ∨ k = .iso10126)
    (d r : Bytes) {ov : Nat} (h1 : 1 ≤ ov) (h255 : ov ≤ 255) :
    (countByte (d ++ trailerBytes k ov r)).toNat = ov := by
  have hend : ∃ f, trailerBytes k ov r = f ++ [BitVec.ofNat 8 ov] := by
    rcases hk with rfl | rfl | rfl | rfl
    · exact ⟨_, by rw [← List.replicate_succ', Nat.sub_add_cancel h1, trailerBytes]⟩
    · exact ⟨_, by rw [← List.replicate_succ', Nat.sub_add_cancel h1, trailerBytes]⟩
    · exact ⟨_, rfl⟩
    · rcases eq_or_ne ov 1 with rfl | hne
      · exact ⟨[], rfl⟩
      · exact ⟨r, if_neg hne⟩
  obtain ⟨f, hf⟩ := hend
  rw [hf, ← List.append_assoc, countByte_concat, BitVec.toNat_ofNat]
  omega

theorem strip_pkcs7_append_trailer {k : Scheme} (hk : k = .pkcs7 ∨ k = .pkcs5) (d r : Bytes) (b : Nat) {ov : Nat}
    (h1 : 1 ≤ ov) (h255 : ov ≤ 255) : strip k (d ++ trailerBytes k ov r) b = some d := by
  have htrailer : trailerBytes k ov r = List.replicate ov (BitVec.ofNat 8 ov) := by
    rcases hk with rfl | rfl <;> rfl
  have hcount : (countByte (d ++ trailerBytes k ov r)).toNat = ov :=
    countByte_append_trailer (by tauto) d r h1 h255
  rw [strip_pkcs7 hk, hcount, htrailer, take_append_trailer List.length_replicate, if_pos]
  refine ⟨by omega, by simp, fun j hlo hj => ?_⟩
  simp only [List.length_append, List.length_replicate] at hlo hj
  rw [List.getD_append_right _ _ _ _ (by omega), List.getD_replicate _ (by omega), BitVec.toNat_ofNat]
  omega

theorem strip_x923_append_trailer (d r : Bytes) (b : Nat) {ov : Nat} (h1 : 1 ≤ ov) (h255 : ov ≤ 255) :
    strip .x923 (d ++ trailerBytes .x923 ov r) b = some d := by
  have hlen : (trailerBytes .x923 ov r).length = ov := by simp [trailerBytes]; omega
  rw [strip_x923, countByte_append_trailer (by simp) d r h1 h255, take_append_trailer hlen, if_pos]
  refine ⟨by omega, by simp [hlen], fun j hlo hj => ?_⟩
  rw [List.length_append, hlen] at hlo hj
  rw [List.getD_append_right _ _ _ _ (by omega), trailerBytes, List.getD_append _ _ _ _ (by simp; omega),
    List.getD_replicate _ (by omega)]

theorem strip_iso10126_append_trailer (d : Bytes) {r : Bytes} {b ov : Nat} (h1 : 1 ≤ ov) (h255 : ov ≤ 255)
    (hb : ov ≤ b) (hr : r.length = ov - 1) :
    strip .iso10126 (d ++ trailerBytes .iso10126 ov r) b = some d := by
  have hlen : (trailerBytes .iso10126 ov r).length = ov := trailerBytes_length h1 hr
  rw [strip_iso10126, countByte_append_trailer (by simp) d r h1 h255, take_append_trailer hlen,
    if_pos ⟨by simp [hlen], hb⟩]

theorem dropZerosReversed_append_trailer (d r : Bytes) (ov : Nat) :
    dropZerosReversed (d ++ trailerBytes .bit ov r) = 0x80 :: d.reverse := by
  rw [trailerBytes, List.append_cons, dropZerosReversed_append_zeros, dropZerosReversed_concat d (by decide)]

theorem strip_bit_append_trailer (d r : Bytes) (b ov : Nat) :
    strip .bit (d ++ trailerBytes .bit ov r) b = some d := by
  simp [strip, dropZerosReversed_append_trailer]

/-- The scan meets zeros down to the trailer's first byte. -/
theorem strip_iso7816_append_trailer (d r : Bytes) {b ov : Nat} (h1 : 1 ≤ ov) (hb : ov ≤ b) :
    strip .iso7816 (d ++ trailerBytes .iso7816 ov r) b = some d := by
  have hlen : (trailerBytes .iso7816 ov r).length = ov := by simp [trailerBytes]; omega
  have hscan : scanBack (d ++ trailerBytes .iso7816 ov r) ((d ++ trailerBytes .iso7816 ov r).length - b) b =
      some d.length := by
    rw [List.length_append, hlen]
    refine scanBack_eq_some (by omega) (by omega) ?_ fun j hlo hj => ?_
    · rw [List.getD_append_right _ _ _ _ (Nat.le_refl _), Nat.sub_self]
      rfl
    · obtain ⟨i, hi⟩ := Nat.exists_eq_add_of_lt hlo
      have hoff : j - d.length = i + 1 := by omega
      rw [List.getD_append_right _ _ _ _ (by omega), hoff, trailerBytes, List.getD_cons_succ,
        List.getD_eq_getElem?_getD, List.getElem?_getD_replicate_default_eq]
      decide
  rw [strip_iso7816, hscan, Option.map_some, List.take_left]

/-- `Strip` undoes the trailer of every scheme but ZERO. -/
theorem strip_append_trailer {k : Scheme} (hk : k ≠ .zero) (d : Bytes) {r : Bytes} {b ov : Nat} (h1 : 1 ≤ ov)
    (hb : ov ≤ b) (h255 : ov ≤ 255) (hr : r.length = ov - 1) :
    strip k (d ++ trailerBytes k ov r) b = some d := by
  cases k with
  | zero => exact absurd rfl hk
  | bit => exact strip_bit_append_trailer d r b ov
  | pkcs7 => exact strip_pkcs7_append_trailer (.inl rfl) d r b h1 h255
  | pkcs5 => exact strip_pkcs7_append_trailer (.inr rfl) d r b h1 h255
  | x923 => exact strip_x923_append_trailer d r b h1 h255
  | iso7816 => exact strip_iso7816_append_trailer d r h1 hb
  | iso10126 => exact strip_iso10126_append_trailer d h1 h255 hb hr

/-- ZERO drops its trailer and what zeros stand before it. -/
theorem strip_zero_append_trailer (d r : Bytes) (b ov : Nat) :
    strip .zero (d ++ trailerBytes .zero ov r) b = some (dropZerosReversed d).reverse := by
  rw [strip, trailerBytes, dropZerosReversed_append_zeros]

/-- `Strip` undoes the trailer of every scheme; ZERO's only where the data does not end in a zero itself. -/
theorem strip_append_trailer_of_no_zero {k : Scheme} {d r : Bytes} {b ov : Nat}
    (hzero : k = .zero → d.getLast? ≠ some 0x00) (h1 : 1 ≤ ov) (hb : ov ≤ b) (h255 : ov ≤ 255)
    (hr : r.length = ov - 1) : strip k (d ++ trailerBytes k ov r) b = some d := by
  by_cases hk : k = .zero
  · subst hk
    rw [strip_zero_append_trailer, (reverse_dropZerosReversed_eq_self_iff d).mpr (hzero rfl)]
  · exact strip_append_trailer hk d h1 hb h255 hr

/-- What PAD puts out passes the checks of UNPAD. -/
theorem unpadReady_of_padded {k : Scheme} {s u : State} {r : Bytes} (hb : padSize k s ≠ 0)
    (hcap : s.inLen.toNat + padOvh k s ≤ s.params.bufCap) (hr : r.length = padOvh k s - 1)
    (hparams : u.params = s.params) (hsize : padSize k u = padSize k s)
    (hin : u.inBytes = s.inBytes ++ trailerBytes k (padOvh k s) r) : unpadReady k u := by
  have hov := (padOvh_bounds hb).1
  rw [unpadReady, ← inBytes_length u, hin, inBytes_append_trailer_length hb hr, hsize, hparams]
  exact ⟨by omega, hb, add_ovh_mod _ _ (Nat.pos_of_ne_zero hb), hcap⟩

end Sys2Proof.Machine
end

section
/-! PROOFS. The obligations of 40_padding.md, from the lemmas above. -/

namespace Sys2Proof.Proofs

open Sys2Proof.Machine

/-- Settles O37: `Strip` undoes every trailer of the table, and the output of a PAD that succeeds is IN and
one of them, which UNPAD's checks let through. -/
theorem paddingRoundTrip : Obligations.PaddingRoundTrip := by
  refine ⟨fun k d r b h1 h255 _ _ hr => ?_, ?_⟩
  · have hov := ovh_bounds d.length b (by omega)
    refine ⟨fun hk => strip_append_trailer hk d hov.1 hov.2 (hov.2.trans h255) hr, ?_⟩
    rintro rfl
    rw [strip_zero_append_trailer, Option.some_inj, Option.getD_some]
    exact ⟨reverse_dropZerosReversed_eq_self_iff d, exists_zeros_removed d⟩
  · intro k s t u v hp hbusy hpad hidle hok hparams hblksz hin hzero hunpad
    obtain ⟨-, hb, hcap, r, hr, rfl⟩ := pad_success hbusy hpad hidle hok
    obtain ⟨hov1, hovb⟩ := padOvh_bounds hb
    have hcap28 := hp.2
    rw [outBytes_finish _ _ (by rw [inBytes_append_trailer_length hb hr]; omega)] at hin
    have hsize : padSize k u = padSize k s := by rw [padSize, hblksz]; rfl
    have hready : unpadReady k u := unpadReady_of_padded hb hcap hr hparams hsize hin
    have hstrip : strip k u.inBytes (padSize k u) = some s.inBytes := by
      rw [hin, hsize]
      exact strip_append_trailer_of_no_zero hzero hov1 hovb (hovb.trans (padSize_le k s)) hr
    rw [exec_unpad_of_strip_eq_some hready hstrip] at hunpad
    cases hunpad
    exact ⟨rfl, outBytes_finish _ _ (by rw [inBytes_length]; omega)⟩

/-- Settles O29: past the checks the trailer needs no filler. -/
theorem padAppendsTrailer : Obligations.PadAppendsTrailer := by
  intro k s hn hb hcap hfill
  rw [exec_pad_of_fits hn hb hcap, trailer_of_no_filler s hfill]
  rfl

/-- Settles O30: past the checks the trailer is what the request for its filler gives. -/
theorem padFillsAtRandom : Obligations.PadFillsAtRandom := by
  intro s hn hb hcap hfill
  have hexec := exec_pad_of_fits hn hb hcap
  rw [trailer_of_filler s hfill, askBytes] at hexec
  refine ⟨fun r hr => ⟨length_of_ask_rngFill hr, hexec.trans ?_⟩, fun hr => hexec.trans ?_,
    fun hr => hexec.trans ?_⟩
  · rw [hr, List.append_assoc]
    rfl
  · rw [hr]
    rfl
  · rw [hr]
    rfl

/-- Settles O31: the checks of PAD are one chain of conditions. -/
theorem padErrors : Obligations.PadErrors := by
  intro k s hp
  simp only [exec_pad, padCmd_eq]
  refine ⟨fun hn => ?_, fun hn hb => ?_, fun hn hb hin => ?_, fun hn hb hin hcap => ⟨?_, ?_⟩⟩
  · rw [if_pos hn]; rfl
  · rw [if_neg hn, if_pos hb]; rfl
  · rw [if_neg hn, if_neg hb, if_pos hin]; rfl
  · rw [if_neg hn, if_neg hb, if_neg (Nat.not_lt.mpr hin), if_pos hcap]; rfl
  · have hcap28 := hp.2
    have hov := (padOvh_bounds hb).2
    have hsize := padSize_le k s
    omega

/-- Settles O32: the output of a PAD that succeeds is IN and a trailer as long as the overhead. -/
theorem padLengths : Obligations.PadLengths := by
  intro k s t hp hbusy hpad hidle hok
  obtain ⟨hn, hb, hcap, r, hr, rfl⟩ := pad_success hbusy hpad hidle hok
  obtain ⟨hov1, hovb⟩ := padOvh_bounds hb
  have hlen : (finish s (s.inBytes ++ trailerBytes k (padOvh k s) r)).outLen.toNat = s.inLen.toNat + padOvh k s := by
    have hcap28 := hp.2
    rw [finish_outLen, inBytes_append_trailer_length hb hr, BitVec.toNat_ofNat]
    omega
  rw [hlen]
  exact ⟨add_ovh_mod _ _ (Nat.pos_of_ne_zero hb), by omega, by omega, hov1, hovb⟩

/-- Settles O36: the checks of UNPAD are one chain of conditions. -/
theorem unpadErrors : Obligations.UnpadErrors := by
  intro k s
  simp only [exec_unpad, unpadCmd_eq]
  refine ⟨fun hn => ?_, fun hn hb => ?_, fun hn hb halign => ?_, fun hn hb halign hcap => ?_⟩
  · rw [if_pos hn]; rfl
  · rw [if_neg hn, if_pos hb]; rfl
  · rw [if_neg hn, if_neg hb, if_pos halign]; rfl
  · rw [if_neg hn, if_neg hb, if_neg (not_not.mpr halign), if_pos hcap]; rfl

/-- Settles O33: `m` is where the trailing zeros begin. -/
theorem unpadZeroAndBit : Obligations.UnpadZeroAndBit := by
  intro s m hm hz hlast
  rw [← inBytes_length] at hm
  simp only [← inBytes_length s] at hz
  have hdrop := dropZerosReversed_eq_take hm hz hlast
  have hbit (hr : unpadReady .bit s) := exec_unpad_of_strip_eq_ite hr (strip_bit_of_take hm hdrop _)
  refine ⟨fun hr => ?_, fun hr hne hmark => ?_, fun hr hno => ?_⟩
  · exact exec_unpad_of_strip_eq_some (k := .zero) hr (strip_zero_of_take hdrop _)
  · exact (hbit hr).1 ⟨hne, hmark⟩
  · exact (hbit hr).2 fun ⟨hne, hmark⟩ => hno.elim hne fun h => h hmark

/-- Settles O34: the count and what its scheme checks are the claims' conditions. -/
theorem unpadCounted : Obligations.UnpadCounted := by
  intro k s c hr hc
  have hcount : (countByte s.inBytes).toNat = c := by rw [countByte_eq, inBytes_length, hc]
  refine ⟨fun hk => ?_, fun hk => ?_⟩
  · have hstrip := strip_pkcs7 hk s.inBytes (padSize k s)
    rw [hcount, pkcs7Accepts, inBytes_length] at hstrip
    obtain ⟨haccept, hreject⟩ := exec_unpad_of_strip_eq_ite hr hstrip
    exact ⟨fun h0 hle hall => haccept ⟨h0, hle, hall⟩, fun hno => hreject (not_accepts_of_reject hno)⟩
  · subst hk
    have hstrip := strip_x923 s.inBytes (padSize .x923 s)
    rw [hcount, x923Accepts, inBytes_length] at hstrip
    obtain ⟨haccept, hreject⟩ := exec_unpad_of_strip_eq_ite hr hstrip
    exact ⟨fun h0 hle hall => haccept ⟨h0, hle, hall⟩, fun hno => hreject (not_accepts_of_reject hno)⟩

/-- Settles O35: ISO7816 scans the last B bytes, and ISO10126 compares its count. -/
theorem unpadIso : Obligations.UnpadIso := by
  refine ⟨fun s hr => ?_, fun s c hr hc => ?_⟩
  · have hle : padSize .iso7816 s ≤ s.inLen.toNat := by
      obtain ⟨hn, -, halign, -⟩ := hr
      exact Nat.le_of_dvd (Nat.pos_of_ne_zero hn) (Nat.dvd_of_mod_eq_zero halign)
    have hend : s.inLen.toNat - padSize .iso7816 s + padSize .iso7816 s = s.inLen.toNat := Nat.sub_add_cancel hle
    have hstrip := strip_iso7816 s.inBytes (padSize .iso7816 s)
    rw [inBytes_length] at hstrip
    refine ⟨fun i hlo hi hmark hlast => ?_, fun hno => ?_⟩
    · refine exec_unpad_of_strip_eq_some (k := .iso7816) hr (hstrip.trans ?_)
      rw [scanBack_eq_some hlo (hend.symm ▸ hi) hmark (hend.symm ▸ hlast), Option.map_some]
    · refine exec_unpad_of_strip_eq_none (k := .iso7816) hr (hstrip.trans ?_)
      rw [scanBack_eq_none_iff.mpr (hend.symm ▸ hno), Option.map_none]
  · have hcount : (countByte s.inBytes).toNat = c := by rw [countByte_eq, inBytes_length, hc]
    have hstrip := strip_iso10126 s.inBytes (padSize .iso10126 s)
    rw [hcount, inBytes_length] at hstrip
    obtain ⟨haccept, hreject⟩ := exec_unpad_of_strip_eq_ite hr hstrip
    exact ⟨fun hn hb => haccept ⟨hn, hb⟩, fun hno => hreject (by omega)⟩

end Sys2Proof.Proofs
end

section
/-! PROOFS. One changed byte in the trailer of pad(41 41 41, 8): what `Strip` makes of it (40_padding.md R121). -/

namespace Sys2Proof.Machine

/-! ### When `Strip` accepts -/

theorem strip_bit_isSome {d : Bytes} {m : Nat} (hm : m ≤ d.length) (h : dropZerosReversed d = (d.take m).reverse)
    (b : Nat) : (strip .bit d b).isSome = true ↔ m ≠ 0 ∧ d.getD (m - 1) 0 = 0x80 := by
  rw [strip_bit_of_take hm h, Option.isSome_ite]

theorem strip_pkcs7_isSome {k : Scheme} (hk : k = .pkcs7 ∨ k = .pkcs5) (d : Bytes) (b : Nat) :
    (strip k d b).isSome = true ↔ pkcs7Accepts d (countByte d).toNat := by
  rw [strip_pkcs7 hk, Option.isSome_ite]

theorem strip_x923_isSome (d : Bytes) (b : Nat) :
    (strip .x923 d b).isSome = true ↔ x923Accepts d (countByte d).toNat := by
  rw [strip_x923, Option.isSome_ite]

theorem strip_iso7816_isSome (d : Bytes) (b : Nat) :
    (strip .iso7816 d b).isSome = true ↔
      ∃ i, d.length - b ≤ i ∧ i < d.length - b + b ∧ d.getD i 0 = 0x80 := by
  rw [strip_iso7816, Option.isSome_map, ← Option.ne_none_iff_isSome, ne_eq, scanBack_eq_none_iff]
  push Not
  rfl

theorem strip_iso10126_isSome (d : Bytes) (b : Nat) :
    (strip .iso10126 d b).isSome = true ↔ (countByte d).toNat ≤ d.length ∧ (countByte d).toNat ≤ b := by
  rw [strip_iso10126, Option.isSome_ite]

/-! ### The changed data -/

/-- What the padding of 41 41 41 to 8 bytes appends, the filler of ISO10126 being AA AA AA AA. -/
def sampleTrailer (k : Scheme) : Bytes := trailerBytes k 5 [0xAA, 0xAA, 0xAA, 0xAA]

/-- The padded data with trailer byte `j` changed to `x`. -/
def changedSample (k : Scheme) (j : Nat) (x : Byte) : Bytes := [0x41, 0x41, 0x41] ++ (sampleTrailer k).set j x

theorem sampleTrailer_length (k : Scheme) : (sampleTrailer k).length = 5 := by
  cases k <;> rfl

theorem changedSample_length (k : Scheme) (j : Nat) (x : Byte) : (changedSample k j x).length = 8 := by
  simp [changedSample, sampleTrailer_length]

theorem changedSample_getD_data (k : Scheme) (j : Nat) (x : Byte) {i : Nat} (h : i < 3) :
    (changedSample k j x).getD i 0 = 0x41 := by
  rw [changedSample, List.getD_append _ _ _ _ h]
  interval_cases i <;> rfl

theorem changedSample_getD_trailer (k : Scheme) (j : Nat) (x : Byte) (i : Nat) :
    (changedSample k j x).getD (3 + i) 0 = ((sampleTrailer k).set j x).getD i 0 := by
  rw [changedSample, List.getD_append_right _ _ _ _ (Nat.le_add_right 3 i)]
  exact congrArg (List.getD _ · 0) (Nat.add_sub_cancel_left 3 i)

theorem changedSample_getD_changed (k : Scheme) {j : Nat} (x : Byte) (h : j < 5) :
    (changedSample k j x).getD (3 + j) 0 = x := by
  rw [changedSample_getD_trailer, List.getD_eq_getElem _ _ (by simpa [sampleTrailer_length]), List.getElem_set_self]

theorem changedSample_getD_kept (k : Scheme) {j i : Nat} (x : Byte) (h : j ≠ i) :
    (changedSample k j x).getD (3 + i) 0 = (sampleTrailer k).getD i 0 := by
  rw [changedSample_getD_trailer, List.getD_eq_getElem?_getD, List.getElem?_set_ne h, ← List.getD_eq_getElem?_getD]

/-- A change of another byte than the last keeps the count. -/
theorem countByte_changedSample (k : Scheme) {j : Nat} (x : Byte) (h : j ≠ 4) :
    countByte (changedSample k j x) = (sampleTrailer k).getD 4 0 := by
  rw [countByte_eq, changedSample_length]
  exact changedSample_getD_kept k x h

/-- A change of the last byte is a change of the count. -/
theorem countByte_changedSample_last (k : Scheme) (x : Byte) : countByte (changedSample k 4 x) = x := by
  rw [countByte_eq, changedSample_length]
  exact changedSample_getD_changed k x (by decide)

/-! ### Which changes each scheme accepts -/

/-- PKCS7 finds a byte that differs from the count, unless the count is 1 and reaches no other byte. -/
theorem strip_changedSample_pkcs7 {k : Scheme} (hk : k = .pkcs7 ∨ k = .pkcs5) {j : Nat} {x : Byte} (hj : j < 5)
    (hx : x ≠ (sampleTrailer k).getD j 0) :
    (strip k (changedSample k j x) 8).isSome = true ↔ j = 4 ∧ x = 0x01 := by
  have hfive {i : Nat} (hi : i < 5) : (sampleTrailer k).getD i 0 = 0x05 := by
    rcases hk with rfl | rfl <;> exact List.getD_replicate _ hi
  rw [hfive hj] at hx
  constructor
  · rw [strip_pkcs7_isSome hk]
    rintro ⟨h0, hle, hall⟩
    rw [changedSample_length] at hle hall
    rcases eq_or_ne j 4 with rfl | hne
    · rw [countByte_changedSample_last] at h0 hall
      refine ⟨rfl, BitVec.eq_of_toNat_eq ?_⟩
      change x.toNat = 1
      by_contra h1
      have hbefore := hall (3 + 3) (by omega) (by decide)
      rw [changedSample_getD_kept k x (by decide), hfive (by decide)] at hbefore
      exact hx (BitVec.eq_of_toNat_eq hbefore.symm)
    · rw [countByte_changedSample k x hne, hfive (by decide)] at hall
      have hchanged := hall (3 + j) (by simp) (by omega)
      rw [changedSample_getD_changed k x hj] at hchanged
      exact absurd (BitVec.eq_of_toNat_eq hchanged) hx
  · rintro ⟨rfl, rfl⟩
    rcases hk with rfl | rfl <;> rfl

/-- X923 finds a byte before the count that is not 0x00, and a count that reaches into the data. -/
theorem strip_changedSample_x923 {j : Nat} {x : Byte} (hj : j < 5) (hx : x ≠ (sampleTrailer .x923).getD j 0) :
    (strip .x923 (changedSample .x923 j x) 8).isSome = true ↔
      j = 4 ∧ (x = 0x01 ∨ x = 0x02 ∨ x = 0x03 ∨ x = 0x04) := by
  constructor
  · rw [strip_x923_isSome]
    rintro ⟨h0, hle, hall⟩
    rw [changedSample_length] at hle hall
    rcases eq_or_ne j 4 with rfl | hne
    · rw [countByte_changedSample_last] at h0 hle hall
      have h5 : x.toNat ≠ 5 := fun h => hx (BitVec.eq_of_toNat_eq h)
      have hlt : x.toNat < 6 := by
        by_contra h6
        have hdata := hall 2 (by omega) (by decide)
        rw [changedSample_getD_data _ _ _ (by decide)] at hdata
        exact absurd hdata (by decide)
      have hcases : x.toNat = 1 ∨ x.toNat = 2 ∨ x.toNat = 3 ∨ x.toNat = 4 := by omega
      exact ⟨rfl, by simpa [← BitVec.toNat_inj] using hcases⟩
    · have hcount : (countByte (changedSample .x923 j x)).toNat = 5 := by
        rw [countByte_changedSample _ x hne]; rfl
      have hzero : (sampleTrailer .x923).getD j 0 = 0x00 := by
        interval_cases j <;> trivial
      have hchanged := hall (3 + j) (by omega) (by omega)
      rw [changedSample_getD_changed _ x hj, ← hzero] at hchanged
      exact absurd hchanged hx
  · rintro ⟨rfl, rfl | rfl | rfl | rfl⟩ <;> rfl

/-- After the marker the trailer of BIT and ISO7816 is zeros. -/
theorem changedSample_getD_after_marker {k : Scheme} (hk : k = .bit ∨ k = .iso7816) {j i : Nat} (x : Byte)
    (h : j ≠ i + 1) : (changedSample k j x).getD (3 + (i + 1)) 0 = 0x00 := by
  have hpad : sampleTrailer k = 0x80 :: List.replicate 4 0x00 := by rcases hk with rfl | rfl <;> rfl
  rw [changedSample_getD_kept k x h, hpad, List.getD_cons_succ, List.getD_eq_getElem?_getD,
    List.getElem?_getD_replicate_default_eq]

/-- BIT looks at the changed byte, or, if that is the marker made 0x00, at the data before it. -/
theorem strip_changedSample_bit {j : Nat} {x : Byte} (hj : j < 5) (hx : x ≠ (sampleTrailer .bit).getD j 0) :
    (strip .bit (changedSample .bit j x) 8).isSome = true ↔ j ≠ 0 ∧ x = 0x80 := by
  have hlen := changedSample_length .bit j x
  have hchanged := changedSample_getD_changed .bit x hj
  have hzeros (i : Nat) (hlo : 3 + j + 1 ≤ i) : (changedSample .bit j x).getD i 0 = 0x00 := by
    obtain ⟨i, rfl⟩ := Nat.exists_eq_add_of_le' (show 3 + 1 ≤ i by omega)
    rw [show i + (3 + 1) = 3 + (i + 1) by omega]
    exact changedSample_getD_after_marker (.inl rfl) x (by omega)
  by_cases hx0 : x = 0x00
  · have hdata := changedSample_getD_data .bit j x (i := 2) (by decide)
    obtain rfl : j = 0 := by
      by_contra h0
      refine hx (hx0.trans ?_)
      interval_cases j <;> trivial
    have hdrop := dropZerosReversed_eq_take (m := 3) (d := changedSample .bit 0 x) (by omega)
      (fun i hlo _ => hlo.eq_or_lt.elim (fun h => h ▸ hchanged.trans hx0) (hzeros i)) (.inr (by rw [hdata]; decide))
    rw [strip_bit_isSome (by omega) hdrop, hdata]
    exact iff_of_false (fun h => absurd h.2 (by decide)) (fun h => h.1 rfl)
  · have hdrop := dropZerosReversed_eq_take (m := 3 + j + 1) (d := changedSample .bit j x) (by omega)
      (fun i hlo _ => hzeros i hlo) (.inr (by rwa [Nat.add_sub_cancel, hchanged]))
    rw [strip_bit_isSome (by omega) hdrop, Nat.add_sub_cancel, hchanged]
    refine and_congr_left fun hmark => iff_of_true (by omega) ?_
    rintro rfl
    exact hx hmark

/-- ISO7816 finds the marker, unless that is the byte changed. -/
theorem strip_changedSample_iso7816 {j : Nat} {x : Byte} (hj : j < 5) (hx : x ≠ (sampleTrailer .iso7816).getD j 0) :
    (strip .iso7816 (changedSample .iso7816 j x) 8).isSome = true ↔ j ≠ 0 := by
  rw [strip_iso7816_isSome, changedSample_length]
  constructor
  · rintro ⟨i, -, -, hmark⟩ rfl
    rcases Nat.lt_or_ge i 3 with hlt | hge
    · rw [changedSample_getD_data _ _ _ hlt] at hmark
      exact absurd hmark (by decide)
    obtain ⟨i, rfl⟩ := Nat.exists_eq_add_of_le hge
    cases i with
    | zero => exact hx ((changedSample_getD_changed _ x hj).symm.trans hmark)
    | succ i =>
      rw [changedSample_getD_after_marker (.inr rfl) x i.succ_ne_zero.symm] at hmark
      exact absurd hmark (by decide)
  · exact fun h0 => ⟨3 + 0, by decide, by decide, changedSample_getD_kept _ x h0⟩

/-- ISO10126 looks at the count alone. -/
theorem strip_changedSample_iso10126 (j : Nat) (x : Byte) :
    (strip .iso10126 (changedSample .iso10126 j x) 8).isSome = true ↔ j ≠ 4 ∨ x.toNat ≤ 8 := by
  rw [strip_iso10126_isSome, changedSample_length, and_self]
  rcases eq_or_ne j 4 with rfl | hne
  · simp [countByte_changedSample_last]
  · rw [countByte_changedSample _ x hne]
    exact iff_of_true (by decide) (.inl hne)

/-- The changes of trailer byte `j` to `x` that each scheme accepts (40_padding.md R121). -/
def acceptsChange (k : Scheme) (j : Nat) (x : Byte) : Bool :=
  match k with
  | .pkcs7 | .pkcs5 => j = 4 ∧ x = 0x01
  | .x923 => j = 4 ∧ (x = 0x01 ∨ x = 0x02 ∨ x = 0x03 ∨ x = 0x04)
  | .bit => j ≠ 0 ∧ x = 0x80
  | .iso7816 => j ≠ 0
  | .iso10126 => j ≠ 4 ∨ x.toNat ≤ 8
  | .zero => true

theorem strip_changedSample_isSome (k : Scheme) {j : Nat} {x : Byte} (hj : j < 5)
    (hx : x ≠ (sampleTrailer k).getD j 0) :
    (strip k (changedSample k j x) 8).isSome = true ↔ acceptsChange k j x = true := by
  cases k
  case zero => exact iff_of_true rfl rfl
  all_goals rw [acceptsChange, decide_eq_true_eq]
  case bit => exact strip_changedSample_bit hj hx
  case pkcs7 => exact strip_changedSample_pkcs7 (.inl rfl) hj hx
  case pkcs5 => exact strip_changedSample_pkcs7 (.inr rfl) hj hx
  case x923 => exact strip_changedSample_x923 hj hx
  case iso7816 => exact strip_changedSample_iso7816 hj hx
  case iso10126 => exact strip_changedSample_iso10126 j x

/-- How many of the 1275 changes each scheme accepts (40_padding.md R121). -/
theorem countP_acceptsChange (k : Scheme) :
    ((List.range 1280).countP fun n => decide (BitVec.ofNat 8 n ≠ (sampleTrailer k).getD (n / 256) 0) &&
        acceptsChange k (n / 256) (BitVec.ofNat 8 n)) =
      match k with
      | .pkcs7 | .pkcs5 => 1
      | .x923 => 4
      | .bit => 4
      | .iso7816 => 1020
      | .iso10126 => 1028
      | .zero => 1275 := by
  cases k <;> decide +kernel

end Sys2Proof.Machine
end

section
/-! PROOFS. The obligation of 40_padding.md about changed trailers, from the lemmas above. -/

namespace Sys2Proof.Proofs

open Sys2Proof.Machine

/-- Settles O38: each scheme's check finds a change or does not see it, and the accepted ones are counted. -/
theorem corruptionAcceptance : Obligations.CorruptionAcceptance := by
  refine fun k => ⟨fun j x hx => ?_, ?_⟩
  · have hlast : j.val = 4 ↔ j = 4 := (Fin.ext_iff (b := 4)).symm
    have hfirst : j.val = 0 ↔ j = 0 := (Fin.ext_iff (b := 0)).symm
    refine (strip_changedSample_isSome k j.isLt hx).trans ?_
    cases k <;> simp only [acceptsChange, decide_eq_true_eq, hlast, hfirst, ne_eq]
  · refine Eq.trans (List.countP_congr fun n hn => ?_) (countP_acceptsChange k)
    have hlt : n / 256 < 5 := by have := List.mem_range.mp hn; omega
    simp only [Bool.and_eq_true, decide_eq_true_eq]
    exact and_congr_right fun hx => strip_changedSample_isSome k hlt hx

end Sys2Proof.Proofs
end

section
/-! PROOFS. The validator's predicates, each as one condition or one chain of conditions, and the end of
a VAL command by its predicate (41_validator.md R150 to R160). -/

namespace Sys2Proof.Machine

/-! ### The predicates (41_validator.md R150) -/

/-- The pseudocode and the claims name the same sizes (00_scope.md R8). -/
theorem aesSize_iff (n : Nat) : aesSize n = true ↔ isAesSize n := by
  simp [aesSize, isAesSize, or_assoc]

/-- A check that tests for the fault, by the condition under which it passes. -/
theorem ite_raise_eq_ite_ok {p q : Prop} [Decidable p] [Decidable q] {code : Code} {arg : Nat} (h : q ↔ ¬ p) :
    (if p then raise code arg else .ok () : Cmd Unit) = if q then .ok () else raise code arg :=
  (ite_not ..).symm.trans (if_congr h.symm rfl rfl)

theorem validKeySize_eq (n : Nat) :
    validKeySize n = if isAesSize n then .ok () else raise .invalidKeySize n :=
  if_congr (aesSize_iff n) rfl rfl

theorem validBlockSize_eq (n : Nat) :
    validBlockSize n = if isAesSize n then .ok () else raise .invalidBlockSize n :=
  if_congr (aesSize_iff n) rfl rfl

theorem validIvSize_eq (n : Nat) :
    validIvSize n = if isAesSize n then .ok () else raise .invalidIvSize n :=
  if_congr (aesSize_iff n) rfl rfl

/-- `ivSizeEquality` as one chain of conditions (41_validator.md R154). -/
theorem ivSizeEquality_eq (iv b : Nat) :
    ivSizeEquality iv b =
      if ¬ isAesSize iv then raise .invalidIvSize iv
      else if ¬ isAesSize b then raise .invalidBlockSize b
      else if iv ≠ b then raise .ivSizeMismatch iv
      else .ok () := by
  simp only [ivSizeEquality, validIvSize_eq, validBlockSize_eq, ivEqual, ite_not]
  split_ifs <;> rfl

theorem validCiphertext_eq (l b : Nat) :
    validCiphertext l b = if b ≠ 0 ∧ b ∣ l then .ok () else raise .invalidCiphertext l :=
  ite_raise_eq_ite_ok (by rw [Nat.dvd_iff_mod_eq_zero, not_or, not_not])

theorem validStdNonceSize_eq (n : Nat) :
    validStdNonceSize n = if n = 12 then .ok () else raise .invalidNonceSize n :=
  ite_raise_eq_ite_ok not_not.symm

theorem validNonceSize_eq (n : Nat) :
    validNonceSize n = if 1 ≤ n then .ok () else raise .invalidNonceSize 0 :=
  ite_raise_eq_ite_ok Nat.one_le_iff_ne_zero

theorem validTagSize_eq (t : Nat) :
    validTagSize t = if 12 ≤ t ∧ t ≤ 16 then .ok () else raise .invalidTagSize t :=
  ite_raise_eq_ite_ok (by omega)

/-- The bound on the data is the exact product (41_validator.md R159). -/
theorem validDataSize_eq (l b : Nat) :
    validDataSize l b = if l ≤ 4294967294 * b then .ok () else raise .dataTooLarge l :=
  ite_raise_eq_ite_ok Nat.not_lt.symm

theorem emptyData_eq (l : Nat) : emptyData l = if 1 ≤ l then .ok () else raise .emptyData 0 :=
  ite_raise_eq_ite_ok Nat.one_le_iff_ne_zero

/-! ### The end of a VAL command by its predicate -/

theorem exec_val_eq {i : Instr} {p : Pred} (hi : i.command = .val p) (s : State) :
    exec i s = .next (conclude s (valCmd (predCheck p s.arg0.toNat s.arg1.toNat))) := by
  rw [exec_eq, hi, Command.body]

/-- Where the predicate is one condition, so is the end of the command. -/
theorem exec_val_of_check_eq_ite {i : Instr} {p : Pred} {s : State} {code : Code} {arg : Nat} {q : Prop}
    {_ : Decidable q} (hi : i.command = .val p)
    (h : predCheck p s.arg0.toNat s.arg1.toNat = if q then .ok () else raise code arg) :
    exec i s = .next (if q then finish s [] else raiseErr s code arg) := by
  rw [exec_val_eq hi, h]
  split_ifs <;> rfl

/-- VAL.IVEQ as one chain of conditions (41_validator.md R154). -/
theorem exec_valIveq (s : State) :
    exec .valIveq s = .next (
      if ¬ isAesSize s.arg0.toNat then raiseErr s .invalidIvSize s.arg0.toNat
      else if ¬ isAesSize s.arg1.toNat then raiseErr s .invalidBlockSize s.arg1.toNat
      else if s.arg0 ≠ s.arg1 then raiseErr s .ivSizeMismatch s.arg0.toNat
      else finish s []) := by
  rw [exec_val_eq (p := .iveq) rfl, predCheck, ivSizeEquality_eq]
  simp only [ne_eq, ← BitVec.toNat_inj]
  split_ifs <;> rfl

end Sys2Proof.Machine
end

section
/-! PROOFS. The obligations of 41_validator.md, from the lemmas above. -/

namespace Sys2Proof.Proofs

open Sys2Proof.Machine

/-- Settles O39: each predicate is one condition on ARG0, and the command ends by it. -/
theorem valOneOperand : Obligations.ValOneOperand := fun s =>
  ⟨exec_val_of_check_eq_ite rfl (validKeySize_eq s.arg0.toNat),
    exec_val_of_check_eq_ite rfl (validBlockSize_eq s.arg0.toNat),
    exec_val_of_check_eq_ite rfl (validIvSize_eq s.arg0.toNat),
    exec_val_of_check_eq_ite rfl (validStdNonceSize_eq s.arg0.toNat),
    exec_val_of_check_eq_ite rfl (validNonceSize_eq s.arg0.toNat),
    exec_val_of_check_eq_ite rfl (validTagSize_eq s.arg0.toNat),
    exec_val_of_check_eq_ite rfl (emptyData_eq s.arg0.toNat)⟩

/-- Settles O40: IVEQ by its chain of conditions, CIPHERTEXT and DATASIZE each by its one condition. -/
theorem valTwoOperands : Obligations.ValTwoOperands := by
  intro s
  refine ⟨fun hiv => ?_, fun hiv hb => ?_, fun hiv hb hne => ?_, fun hiv heq => ?_,
    exec_val_of_check_eq_ite rfl (validCiphertext_eq s.arg0.toNat s.arg1.toNat),
    exec_val_of_check_eq_ite rfl (validDataSize_eq s.arg0.toNat s.arg1.toNat)⟩
  · rw [exec_valIveq, if_pos hiv]
  · rw [exec_valIveq, if_neg (not_not.mpr hiv), if_pos hb]
  · rw [exec_valIveq, if_neg (not_not.mpr hiv), if_neg (not_not.mpr hb), if_pos hne]
  · have hb : isAesSize s.arg1.toNat := heq ▸ hiv
    rw [exec_valIveq, if_neg (not_not.mpr hiv), if_neg (not_not.mpr hb), if_neg (not_not.mpr heq)]

end Sys2Proof.Proofs
end

section
/-! PROOFS. The block split in closed form, and what it says of a sequence given by its blocks
(42_modes.md R181). -/

namespace Sys2Proof.Machine

theorem blocksUpTo_eq_map_range {n : Nat} {p : Bytes} (h : p.length ≤ n) :
    blocksUpTo n p = (List.range ((p.length + 15) / 16)).map fun j => (p.drop (16 * j)).take 16 := by
  induction n generalizing p with
  | zero => simp [blocksUpTo, List.eq_nil_of_length_eq_zero (Nat.le_zero.mp h)]
  | succ n ih =>
    rw [blocksUpTo]
    by_cases hp : p = []
    · simp [hp]
    · have hpos := List.length_pos_of_ne_nil hp
      have hcount : (p.length + 15) / 16 = ((p.drop 16).length + 15) / 16 + 1 := by
        rw [List.length_drop]
        omega
      rw [if_neg (by simpa using hp), ih (by simp [Config.cipherBlock]; omega), hcount,
        List.range_succ_eq_map, List.map_cons, List.map_map]
      simp [Function.comp_def, List.drop_drop, Nat.mul_add, Nat.add_comm]

/-- Block j is the 16 bytes from 16j on, as far as there are any. -/
theorem blocks_eq_map_range (p : Bytes) :
    blocks p = (List.range ((p.length + 15) / 16)).map fun j => (p.drop (16 * j)).take 16 :=
  blocksUpTo_eq_map_range (Nat.le_refl _)

theorem blocks_length (p : Bytes) : (blocks p).length = (p.length + 15) / 16 := by
  simp [blocks_eq_map_range]

theorem blocks_getD {p : Bytes} {j : Nat} (h : j < (blocks p).length) :
    (blocks p).getD j [] = (p.drop (16 * j)).take 16 := by
  rw [blocks_length] at h
  simp [blocks_eq_map_range, h]

/-- How a sequence is cut depends on its length alone. -/
theorem blocks_map_length_congr {p q : Bytes} (h : p.length = q.length) :
    (blocks p).map List.length = (blocks q).map List.length := by
  simp [blocks_eq_map_range, Function.comp_def, h]

/-- Pieces cut as the blocks of some sequence are the blocks of what they join to. -/
theorem blocks_flatten_of_map_length {bs : List Bytes} {p : Bytes}
    (h : bs.map List.length = (blocks p).map List.length) : blocks bs.flatten = bs := by
  have hlen : bs.flatten.length = p.length := by
    rw [List.length_flatten, h, ← List.length_flatten, blocks_flatten]
  rw [List.eq_iff_flatten_eq, blocks_flatten, h]
  exact ⟨rfl, blocks_map_length_congr hlen⟩

end Sys2Proof.Machine
end

section
/-! PROOFS. The block transforms as one recursion: what a mode gives the cipher, what it puts out and what
it hands on to the next block (42_modes.md R182 to R185). -/

namespace Sys2Proof.Machine

/-- The rule of a transform for one block `b`, from what the block before handed on (first the IV): the
cipher's input, and, with the cipher's answer `y`, the output and what is handed on. -/
structure Chain where
  input  : (prev b : Bytes) → Bytes
  output : (prev b y : Bytes) → Bytes
  next   : (prev b y : Bytes) → Bytes

/-- The transform that follows a rule. -/
def Chain.calls (c : Chain) (f : Bytes → Bytes) (prev : Bytes) : List Bytes → List BlockCall
  | [] => []
  | b :: bs =>
    ⟨c.input prev b, c.output prev b (f (c.input prev b))⟩ ::
      c.calls f (c.next prev b (f (c.input prev b))) bs

/-- What the blocks `bs` hand on to the block after them. -/
def Chain.after (c : Chain) (f : Bytes → Bytes) (prev : Bytes) (bs : List Bytes) : Bytes :=
  bs.foldl (fun prev b => c.next prev b (f (c.input prev b))) prev

/-- A block XORed with the keystream block `y`, cut to its length (42_modes.md R183 to R185). -/
def keystreamXor (_prev b y : Bytes) : Bytes := xorBytes b (y.take b.length)

/-- The rule of each encrypting transform. -/
def encChain : BMode → Chain
  | .ecb => ⟨fun _ b => b, fun _ _ y => y, fun prev _ _ => prev⟩
  | .cbc => ⟨fun prev b => xorBytes b prev, fun _ _ y => y, fun _ _ y => y⟩
  | .cfb => ⟨fun prev _ => prev, keystreamXor, keystreamXor⟩
  | .ofb => ⟨fun prev _ => prev, keystreamXor, fun _ _ y => y⟩
  | .ctr => ⟨fun prev _ => prev, keystreamXor, fun prev _ _ => nextCounter prev⟩

/-- The rule of each decrypting transform: CBC and CFB chain the block as it came. -/
def decChain : BMode → Chain
  | .cbc => ⟨fun _ b => b, fun prev _ y => xorBytes y prev, fun _ b _ => b⟩
  | .cfb => ⟨fun prev _ => prev, keystreamXor, fun _ b _ => b⟩
  | .ecb => encChain .ecb
  | .ofb => encChain .ofb
  | .ctr => encChain .ctr

/-! ### The model's transforms follow the rules -/

theorem encCalls_eq_calls (m : BMode) (f : Bytes → Bytes) (iv p : Bytes) :
    encCalls m f iv p = (encChain m).calls f iv (blocks p) := by
  cases m
  all_goals
    simp only [encCalls]
    generalize blocks p = bs
    induction bs generalizing iv with
    | nil => rfl
    | cons b bs ih => exact congrArg (_ :: ·) (ih _)

theorem decCalls_eq_calls (m : BMode) (f : Bytes → Bytes) (iv p : Bytes) :
    decCalls m f iv p = (decChain m).calls f iv (blocks p) := by
  cases m
  all_goals
    simp only [decCalls]
    generalize blocks p = bs
    induction bs generalizing iv with
    | nil => rfl
    | cons b bs ih => exact congrArg (_ :: ·) (ih _)

/-! ### Block by block -/

section
variable {c : Chain} {f : Bytes → Bytes} {prev : Bytes} {bs : List Bytes}

@[simp] theorem Chain.calls_length : (c.calls f prev bs).length = bs.length := by
  induction bs generalizing prev with
  | nil => rfl
  | cons b bs ih => exact congrArg (· + 1) ih

/-- Call j is the rule's for block j and what the blocks before it hand on. -/
theorem Chain.calls_getElem? {j : Nat} (h : j < bs.length) :
    (c.calls f prev bs)[j]? =
      some ⟨c.input (c.after f prev (bs.take j)) (bs.getD j []),
        c.output (c.after f prev (bs.take j)) (bs.getD j [])
          (f (c.input (c.after f prev (bs.take j)) (bs.getD j [])))⟩ := by
  induction bs generalizing prev j with
  | nil => cases h
  | cons b bs ih =>
    cases j with
    | zero => rfl
    | succ j => exact ih (Nat.lt_of_succ_lt_succ h)

theorem Chain.inputs_getD {j : Nat} (h : j < bs.length) :
    ((c.calls f prev bs).map BlockCall.input).getD j [] =
      c.input (c.after f prev (bs.take j)) (bs.getD j []) := by
  rw [List.getD_eq_getElem?_getD, List.getElem?_map, calls_getElem? h]
  rfl

theorem Chain.outputs_getD {j : Nat} (h : j < bs.length) :
    ((c.calls f prev bs).map BlockCall.output).getD j [] =
      c.output (c.after f prev (bs.take j)) (bs.getD j [])
        (f (((c.calls f prev bs).map BlockCall.input).getD j [])) := by
  rw [inputs_getD h, List.getD_eq_getElem?_getD, List.getElem?_map, calls_getElem? h]
  rfl

/-- Block j hands on what its rule says, to block j + 1. -/
theorem Chain.after_take_succ {j : Nat} (h : j < bs.length) :
    c.after f prev (bs.take (j + 1)) =
      c.next (c.after f prev (bs.take j)) (bs.getD j [])
        (f (((c.calls f prev bs).map BlockCall.input).getD j [])) := by
  rw [inputs_getD h, List.getD_eq_getElem _ _ h, List.take_succ_eq_append_getElem h, after, after,
    List.foldl_append]
  rfl

/-- What block j is handed, where the cipher's answer is handed on. -/
theorem Chain.after_eq_answers {j : Nat} (hj : j < bs.length) (h : ∀ prev b y, c.next prev b y = y) :
    c.after f prev (bs.take j) =
      (prev :: ((c.calls f prev bs).map BlockCall.input).map f).getD j [] := by
  cases j with
  | zero => rfl
  | succ i =>
    have hi : i < ((c.calls f prev bs).map BlockCall.input).length := by simp; omega
    rw [after_take_succ (by omega), h, List.getD_cons_succ, List.getD_eq_getElem _ _ hi,
      List.getD_eq_getElem _ _ (by rwa [List.length_map]), List.getElem_map f]

/-- What block j is handed, where the output is handed on. -/
theorem Chain.after_eq_outputs {j : Nat} (hj : j < bs.length)
    (h : ∀ prev b y, c.next prev b y = c.output prev b y) :
    c.after f prev (bs.take j) = (prev :: (c.calls f prev bs).map BlockCall.output).getD j [] := by
  cases j with
  | zero => rfl
  | succ i => rw [after_take_succ (by omega), h, ← outputs_getD (by omega), List.getD_cons_succ]

/-- What block j is handed, where the block is handed on as it came. -/
theorem Chain.after_eq_blocks {j : Nat} (hj : j < bs.length) (h : ∀ prev b y, c.next prev b y = b) :
    c.after f prev (bs.take j) = (prev :: bs).getD j [] := by
  cases j with
  | zero => rfl
  | succ i => rw [after_take_succ (by omega), h, List.getD_cons_succ]

end

/-! ### Counter blocks (42_modes.md R185) -/

@[simp] theorem beBytes_length (n v : Nat) : (beBytes n v).length = n := by
  induction n generalizing v with
  | zero => rfl
  | succ n ih => simp [beBytes, ih]

theorem beNat_beBytes (n v : Nat) : beNat (beBytes n v) = v % 256 ^ n := by
  induction n with
  | zero => simp [beBytes, beNat, Nat.mod_one]
  | succ n ih =>
    rw [beBytes, beNat, ih, beBytes_length, BitVec.toNat_ofNat, Nat.mod_pow_succ (x := v),
      Nat.add_comm, Nat.mul_comm]

theorem beNat_lt (x : Bytes) : beNat x < 256 ^ x.length := by
  induction x with
  | nil => simp [beNat]
  | cons b bs ih =>
    have hb := b.isLt
    rw [beNat, List.length_cons, Nat.pow_succ]
    nlinarith

/-- The bytes of a big-endian integer, each at its weight. -/
theorem beNat_eq_sum (x : Bytes) :
    beNat x = ((List.range x.length).map fun i => (x.getD i 0).toNat * 2 ^ (8 * (x.length - 1 - i))).sum := by
  induction x with
  | nil => rfl
  | cons b bs ih =>
    rw [beNat, ih, List.length_cons, List.range_succ_eq_map]
    simp [Function.comp_def, pow_mul, Nat.sub_sub, Nat.add_comm]

@[simp] theorem nextCounter_length (t : Bytes) : (nextCounter t).length = 16 := beBytes_length _ _

theorem beNat_nextCounter (t : Bytes) : beNat (nextCounter t) = (beNat t + 1) % 2 ^ 128 :=
  (beNat_beBytes _ _).trans (Nat.mod_mod_of_dvd _ (by norm_num))

/-- The counter blocks count up from the IV (42_modes.md R185). -/
theorem ctr_after (f : Bytes → Bytes) {iv : Bytes} {bs : List Bytes} {j : Nat} (hiv : iv.length = 16)
    (hj : j < bs.length) :
    ((encChain .ctr).after f iv (bs.take j)).length = 16 ∧
      beNat ((encChain .ctr).after f iv (bs.take j)) = (beNat iv + j) % 2 ^ 128 := by
  induction j with
  | zero =>
    have hlt := beNat_lt iv
    rw [hiv] at hlt
    have hmod : (beNat iv + 0) % 2 ^ 128 = beNat iv := Nat.mod_eq_of_lt (by omega)
    exact ⟨hiv, hmod.symm⟩
  | succ j ih =>
    obtain ⟨-, hval⟩ := ih (by omega)
    rw [Chain.after_take_succ (by omega)]
    refine ⟨nextCounter_length _, (beNat_nextCounter _).trans ?_⟩
    rw [hval, Nat.mod_add_mod, Nat.add_assoc]

end Sys2Proof.Machine
end

section
/-! PROOFS. The obligations of 42_modes.md about the block transforms, from the lemmas above. -/

namespace Sys2Proof.Proofs

open Sys2Proof.Machine

/-- Settles O41: the blocks are the slices of their closed form. -/
theorem blockSplit : Obligations.BlockSplit := by
  intro p hp
  have hpos := List.length_pos_of_ne_nil hp
  have hcount := blocks_length p
  refine ⟨hcount, fun j => blocks_getD, fun j hj => ?_, ?_, by omega, by omega, blocks_flatten p,
    fun halign b => blocks_full halign⟩
  · rw [blocks_getD (by omega), List.length_take, List.length_drop]
    omega
  · rw [blocks_getD (by omega), List.length_take, List.length_drop]
    omega

/-- Settles O42: the rules of ECB and CBC, where CBC hands on the output, in decryption the block. -/
theorem ecbCbcTransforms : Obligations.EcbCbcTransforms := by
  intro f iv p j hj
  have henc := Chain.after_eq_outputs (c := encChain .cbc) (f := f) (prev := iv) hj fun _ _ _ => rfl
  have hdec := Chain.after_eq_blocks (c := decChain .cbc) (f := f) (prev := iv) hj fun _ _ _ => rfl
  simp only [encCalls_eq_calls, decCalls_eq_calls, List.length_map, Chain.calls_length, ← henc, ← hdec,
    Chain.outputs_getD hj, Chain.inputs_getD hj]
  exact ⟨trivial, rfl, rfl, rfl, trivial, rfl, rfl, trivial, rfl, rfl⟩

/-- Settles O43: the rule of CFB, which hands on the output, in decryption the block. -/
theorem cfbTransform : Obligations.CfbTransform := by
  intro f iv p j hj
  have henc := Chain.after_eq_outputs (c := encChain .cfb) (f := f) (prev := iv) hj fun _ _ _ => rfl
  have hdec := Chain.after_eq_blocks (c := decChain .cfb) (f := f) (prev := iv) hj fun _ _ _ => rfl
  simp only [encCalls_eq_calls, decCalls_eq_calls, List.length_map, Chain.calls_length, ← henc, ← hdec,
    Chain.outputs_getD hj, Chain.inputs_getD hj]
  exact ⟨trivial, rfl, rfl, trivial, rfl, rfl⟩

/-- Settles O44: the rule of OFB, which hands on the cipher's answer. -/
theorem ofbTransform : Obligations.OfbTransform := by
  intro f iv p j hj
  have hofb := Chain.after_eq_answers (c := encChain .ofb) (f := f) (prev := iv) hj fun _ _ _ => rfl
  simp only [encCalls_eq_calls, decCalls_eq_calls, List.length_map, Chain.calls_length, ← hofb,
    Chain.outputs_getD hj, Chain.inputs_getD hj]
  exact ⟨trivial, rfl, rfl, rfl⟩

/-- Settles O45: the rule of CTR, which hands on the next counter block. -/
theorem ctrTransform : Obligations.CtrTransform := by
  refine ⟨fun x hx => ?_, fun f iv p j hiv hj => ?_⟩
  · rw [beNat_eq_sum, hx]
  · obtain ⟨hlen, hval⟩ := ctr_after f hiv hj
    simp only [encCalls_eq_calls, decCalls_eq_calls, List.length_map, Chain.calls_length,
      Chain.outputs_getD hj, Chain.inputs_getD hj]
    exact ⟨trivial, hlen, hval, rfl, rfl⟩

end Sys2Proof.Proofs
end

section
/-! PROOFS. Decryption undoes encryption, block by block, where the two commands had the answers of one cipher
(42_modes.md R182 to R185, R209). -/

namespace Sys2Proof.Machine

/-- One cipher answered both: ENC gave it `x` and got `y`, DEC gave it `x'` and got `y'`. DEC asks ECB and CBC of
the inverse cipher, the other modes of the cipher itself (42_modes.md R209, R212). -/
def sameCipher (m : BMode) (x y x' y' : Bytes) : Prop :=
  match m with
  | .ecb | .cbc => x' = y → y' = x
  | .cfb | .ofb | .ctr => x' = x → y' = y

theorem sameCipher_of_agrees {m : BMode} {k x y x' y' : Bytes}
    (h : Answered.agrees ⟨.encryptBlock k x, .bytes y⟩ ⟨decRequest m k x', .bytes y'⟩ = true) :
    sameCipher m x y x' y' := by
  cases m
  case ecb | cbc => rintro rfl; exact (encrypt_decrypt h).symm
  case cfb | ofb | ctr => rintro rfl; exact (encrypt_encrypt h).symm

theorem xorBytes_cancel {a b : Bytes} (h : a.length ≤ b.length) : xorBytes (xorBytes a b) b = a := by
  apply List.ext_getElem (by simp; omega)
  intro i h1 h2
  simp [xorBytes]

theorem keystreamXor_cancel (prev prev' : Bytes) {p y : Bytes} (h : p.length ≤ y.length) :
    keystreamXor prev' (keystreamXor prev p y) y = p := by
  have hlen : (keystreamXor prev p y).length = p.length := by simp [keystreamXor]; omega
  rw [keystreamXor, hlen]
  exact xorBytes_cancel (by simp; omega)

/-- The blocks a mode takes: at most 16 bytes, and exactly 16 in ECB and CBC (42_modes.md R181, R186). -/
def blockFits (m : BMode) (b : Bytes) : Prop := b.length ≤ 16 ∧ (m = .ecb ∨ m = .cbc → b.length = 16)

theorem encChain_output_length {m : BMode} {prev p y : Bytes} (hp : blockFits m p) (hy : y.length = 16) :
    ((encChain m).output prev p y).length = p.length := by
  obtain ⟨hle, hfull⟩ := hp
  cases m
  case ecb | cbc => rw [hfull (by simp)]; exact hy
  case cfb | ofb | ctr => simp [encChain, keystreamXor]; omega

/-- One block: decryption of the output gives the block back and hands on the same. -/
theorem decChain_undoes_block {m : BMode} {prev p y y' : Bytes} (hp : blockFits m p) (hy : y.length = 16)
    (hprev : m = .cbc → prev.length = 16)
    (h : sameCipher m ((encChain m).input prev p) y
      ((decChain m).input prev ((encChain m).output prev p y)) y') :
    (decChain m).output prev ((encChain m).output prev p y) y' = p ∧
      (decChain m).next prev ((encChain m).output prev p y) y' = (encChain m).next prev p y := by
  obtain ⟨hle, hfull⟩ := hp
  cases m
  case ecb => exact ⟨h rfl, rfl⟩
  case cbc =>
    obtain rfl := h rfl
    exact ⟨xorBytes_cancel (by rw [hfull (by simp), hprev rfl]), rfl⟩
  case cfb | ofb | ctr =>
    obtain rfl := h rfl
    exact ⟨keystreamXor_cancel prev prev (by omega), rfl⟩

theorem encChain_next_length {m : BMode} {prev p y : Bytes} (hy : y.length = 16) (hm : m = .cbc) :
    ((encChain m).next prev p y).length = 16 := by
  subst hm
  exact hy

section
variable {m : BMode} {E F : Bytes → Bytes} {prev : Bytes} {bs : List Bytes}

theorem encChain_map_output_length (hbs : ∀ b ∈ bs, blockFits m b)
    (hE : ∀ x ∈ (encChain m).calls E prev bs, (E x.input).length = 16) :
    (((encChain m).calls E prev bs).map BlockCall.output).map List.length = bs.map List.length := by
  induction bs generalizing prev with
  | nil => rfl
  | cons b bs ih =>
    simp only [Chain.calls, List.forall_mem_cons, List.map_cons] at *
    rw [ih hbs.2 hE.2, encChain_output_length hbs.1 hE.1]

theorem decChain_undoes_calls (hbs : ∀ b ∈ bs, blockFits m b)
    (hE : ∀ x ∈ (encChain m).calls E prev bs, (E x.input).length = 16) (hprev : m = .cbc → prev.length = 16)
    (h : ∀ x ∈ (encChain m).calls E prev bs,
      ∀ x' ∈ (decChain m).calls F prev (((encChain m).calls E prev bs).map BlockCall.output),
        sameCipher m x.input (E x.input) x'.input (F x'.input)) :
    ((decChain m).calls F prev (((encChain m).calls E prev bs).map BlockCall.output)).map BlockCall.output =
      bs := by
  induction bs generalizing prev with
  | nil => rfl
  | cons b bs ih =>
    simp only [Chain.calls, List.map_cons, List.forall_mem_cons] at *
    obtain ⟨hb, hbs⟩ := hbs
    obtain ⟨hy, hE⟩ := hE
    obtain ⟨hout, hnext⟩ := decChain_undoes_block hb hy hprev h.1.1
    rw [hnext] at h ⊢
    rw [hout, ih hbs hE (encChain_next_length hy) fun x hx x' hx' => (h.2 x hx).2 x' hx']

end

/-- Decryption of what encryption put out is the input. -/
theorem decCalls_undoes_encCalls {m : BMode} {E F : Bytes → Bytes} {iv p : Bytes}
    (halign : m = .ecb ∨ m = .cbc → p.length % 16 = 0) (hiv : m = .cbc → iv.length = 16)
    (hE : ∀ x ∈ encCalls m E iv p, (E x.input).length = 16)
    (h : ∀ x ∈ encCalls m E iv p, ∀ x' ∈ decCalls m F iv (joined (encCalls m E iv p)),
      sameCipher m x.input (E x.input) x'.input (F x'.input)) :
    joined (decCalls m F iv (joined (encCalls m E iv p))) = p := by
  have hbs : ∀ b ∈ blocks p, blockFits m b := fun b hb =>
    ⟨(blocks_sizes hb).2, fun hm => blocks_full (halign hm) hb⟩
  rw [encCalls_eq_calls] at hE h ⊢
  have hcut : blocks (joined ((encChain m).calls E iv (blocks p))) =
      ((encChain m).calls E iv (blocks p)).map BlockCall.output :=
    blocks_flatten_of_map_length (encChain_map_output_length hbs hE)
  rw [decCalls_eq_calls, hcut] at h ⊢
  rw [joined, decChain_undoes_calls hbs hE hiv h, blocks_flatten]

end Sys2Proof.Machine
end

section
/-! PROOFS. ENC and DEC by their checks, and what they do once the cipher is constructed
(42_modes.md R186, R187). -/

namespace Sys2Proof.Machine

/-! ### The checks that ENC and DEC share -/

/-- The checks of ENC and DEC up to the construction of the cipher, and then the rest. -/
def modeChecked (m : BMode) (s : State) (rest : Cmd Bytes) : Cmd Bytes := do
  emptyData s.inLen.toNat
  validKeySize s.keyLen.toNat
  modeIvCheck m s.ivLen.toNat
  askInit s (.cipherInit s.keyBytes)
  rest

/-- ENC once the cipher is constructed (42_modes.md R186). -/
def encRest (m : BMode) (k : Option Scheme) (s : State) : Cmd Bytes := do
  encAlignCheck m (paddedLen k s.inLen.toNat)
  capCheck s.params.bufCap (modeLengths m s ++ [paddedLen k s.inLen.toNat])
  let p ← encInput k s
  runBlocks s (.encryptBlock s.keyBytes) (encCalls m (s.cipherFn (.encryptBlock s.keyBytes)) s.ivBytes p)

/-- DEC once the cipher is constructed (42_modes.md R187). -/
def decRest (m : BMode) (k : Option Scheme) (s : State) : Cmd Bytes := do
  decAlignCheck m s.inLen.toNat
  capCheck s.params.bufCap (modeLengths m s)
  let p ← runBlocks s (decRequest m s.keyBytes)
    (decCalls m (s.cipherFn (decRequest m s.keyBytes)) s.ivBytes s.inBytes)
  decOutput k p

theorem encBlk_eq_modeChecked (m : BMode) (k : Option Scheme) (s : State) :
    encBlk m k s = modeChecked m s (encRest m k s) := rfl

theorem exec_enc (m : BMode) (k : Option Scheme) (s : State) :
    exec (Command.enc m k).instr s = .next (conclude s (modeChecked m s (encRest m k s))) :=
  exec_instr _ s

theorem exec_dec (m : BMode) (k : Option Scheme) (s : State) :
    exec (Command.dec m k).instr s = .next (conclude s (modeChecked m s (decRest m k s))) :=
  exec_instr _ s

/-- The IV check as one chain of conditions (42_modes.md R186, 41_validator.md R154). -/
theorem modeIvCheck_eq {m : BMode} (hm : m ≠ .ecb) (n : Nat) :
    modeIvCheck m n =
      if ¬ isAesSize n then raise .invalidIvSize n else if n ≠ 16 then raise .ivSizeMismatch n else .ok () := by
  have h : modeIvCheck m n = ivSizeEquality n 16 := by
    cases m
    case ecb => exact absurd rfl hm
    all_goals rfl
  rw [h, ivSizeEquality_eq, if_neg (c := ¬ isAesSize 16) (by decide)]

/-- A sequence that starts with a check succeeds where the check passes and the rest succeeds. -/
theorem check_bind_eq_ok {α : Type} {x : Cmd Unit} {f : Unit → Cmd α} {a : α} :
    (x >>= f) = .ok a ↔ x = .ok () ∧ f () = .ok a := by
  cases x <;> simp

/-- A construction succeeds where it is answered so. -/
theorem askInit_eq_ok {s : State} {q : Request} (hq : q.isInit = true) :
    askInit s q = .ok () ↔ s.ask q = some .ok := by
  rcases askInit_cases s q with ⟨hask, he⟩ | ⟨hask, he⟩ | ⟨a, hne, hask, he⟩
  · simp [hask, he]
  · simp [hask, he, raise]
  · have hfits := ask_fits hask
    cases q <;> cases a <;> simp_all [Request.isInit, Request.fits]

theorem askInit_of_none {s : State} {q : Request} (h : s.ask q = none) : askInit s q = .error (.wait q) := by
  rw [askInit, h]

theorem askInit_of_fail {s : State} {q : Request} (h : s.ask q = some .fail) :
    askInit s q = raise .cipherInitFailed 0 := by
  rw [askInit, h]

section
variable {m : BMode} {s : State} {rest : Cmd Bytes}

theorem modeChecked_of_empty (h : s.inLen.toNat = 0) : modeChecked m s rest = raise .emptyData 0 := by
  rw [modeChecked, emptyData, if_pos h, cmd_raise_bind]

theorem modeChecked_of_invalid_key (hn : s.inLen.toNat ≠ 0) (hk : ¬ isAesSize s.keyLen.toNat) :
    modeChecked m s rest = raise .invalidKeySize s.keyLen.toNat := by
  rw [modeChecked, (emptyData_eq_ok _).mpr hn, validKeySize_eq, if_neg hk, cmd_ok_bind, cmd_raise_bind]

theorem modeChecked_of_sizes (hn : s.inLen.toNat ≠ 0) (hk : isAesSize s.keyLen.toNat) :
    modeChecked m s rest =
      modeIvCheck m s.ivLen.toNat >>= fun _ => askInit s (.cipherInit s.keyBytes) >>= fun _ => rest := by
  rw [modeChecked, (emptyData_eq_ok _).mpr hn, (validKeySize_eq_ok _).mpr hk, cmd_ok_bind, cmd_ok_bind]

theorem modeChecked_of_invalid_iv (hn : s.inLen.toNat ≠ 0) (hk : isAesSize s.keyLen.toNat) (hm : m ≠ .ecb)
    (hiv : ¬ isAesSize s.ivLen.toNat) : modeChecked m s rest = raise .invalidIvSize s.ivLen.toNat := by
  rw [modeChecked_of_sizes hn hk, modeIvCheck_eq hm, if_pos hiv, cmd_raise_bind]

theorem modeChecked_of_iv_mismatch (hn : s.inLen.toNat ≠ 0) (hk : isAesSize s.keyLen.toNat) (hm : m ≠ .ecb)
    (hiv : s.ivLen.toNat = 24 ∨ s.ivLen.toNat = 32) :
    modeChecked m s rest = raise .ivSizeMismatch s.ivLen.toNat := by
  rw [modeChecked_of_sizes hn hk, modeIvCheck_eq hm, if_neg (not_not.mpr (.inr hiv)), if_pos (by omega),
    cmd_raise_bind]

theorem modeChecked_of_valid (h : modeValid m s) :
    modeChecked m s rest = askInit s (.cipherInit s.keyBytes) >>= fun _ => rest := by
  obtain ⟨hn, hk, hiv⟩ := h
  rw [modeChecked_of_sizes hn hk, (modeIvCheck_eq_ok _ _).mpr hiv, cmd_ok_bind]

theorem modeChecked_of_unanswered (h : modeValid m s) (hask : s.ask (.cipherInit s.keyBytes) = none) :
    modeChecked m s rest = .error (.wait (.cipherInit s.keyBytes)) := by
  rw [modeChecked_of_valid h, askInit_of_none hask, cmd_error_bind]

theorem modeChecked_of_init_failed (h : modeValid m s) (hask : s.ask (.cipherInit s.keyBytes) = some .fail) :
    modeChecked m s rest = raise .cipherInitFailed 0 := by
  rw [modeChecked_of_valid h, askInit_of_fail hask, cmd_raise_bind]

theorem modeChecked_of_ready (h : modeReady m s) : modeChecked m s rest = rest := by
  obtain ⟨hvalid, hask⟩ := h
  rw [modeChecked_of_valid hvalid, (askInit_eq_ok rfl).mpr hask, cmd_ok_bind]

/-- A command that succeeds has passed the checks. -/
theorem modeChecked_eq_ok {out : Bytes} :
    modeChecked m s rest = .ok out ↔ modeReady m s ∧ rest = .ok out := by
  simp only [modeChecked, check_bind_eq_ok, emptyData_eq_ok, validKeySize_eq_ok, modeIvCheck_eq_ok,
    askInit_eq_ok (q := .cipherInit s.keyBytes) rfl, modeReady, modeValid, isAesSize, and_assoc]

end

/-! ### The checks once the cipher is constructed -/

theorem encAlignCheck_eq_ok (m : BMode) (pl : Nat) :
    encAlignCheck m pl = .ok () ↔ (m = .ecb ∨ m = .cbc → pl % 16 = 0) := by
  cases m <;> simp [encAlignCheck, raise, Config.cipherBlock]

theorem decAlignCheck_eq_ok (m : BMode) (n : Nat) :
    decAlignCheck m n = .ok () ↔ (m = .ecb ∨ m = .cbc → n % 16 = 0) := by
  cases m <;> simp [decAlignCheck, validCiphertext, raise, Config.cipherBlock]

theorem encAlignCheck_of_misaligned {m : BMode} {pl : Nat} (hm : m = .ecb ∨ m = .cbc) (h : pl % 16 ≠ 0) :
    encAlignCheck m pl = raise .invalidData pl := by
  rcases hm with rfl | rfl <;> exact if_pos h

theorem decAlignCheck_of_misaligned {m : BMode} {n : Nat} (hm : m = .ecb ∨ m = .cbc) (h : n % 16 ≠ 0) :
    decAlignCheck m n = raise .invalidCiphertext n := by
  rcases hm with rfl | rfl <;> exact if_pos (.inr h)

theorem modeLengths_eq_cons (m : BMode) (s : State) : ∃ l, modeLengths m s = s.inLen.toNat :: l := by
  cases m <;> exact ⟨_, rfl⟩

/-- IN_LEN is the first length checked. -/
theorem capCheck_modeLengths_of_long {m : BMode} {s : State} (h : s.params.bufCap < s.inLen.toNat)
    (rest : List Nat) :
    capCheck s.params.bufCap (modeLengths m s ++ rest) = raise .capacityExceeded s.inLen.toNat := by
  obtain ⟨l, hl⟩ := modeLengths_eq_cons m s
  rw [hl]
  exact if_pos h

/-- A legal key and a legal IV fit their buffers (00_scope.md R9). -/
theorem modeLengths_fit {m : BMode} {s : State} (hp : paramsLegal s.params) (hr : modeValid m s)
    (hn : s.inLen.toNat ≤ s.params.bufCap) : ∀ l ∈ modeLengths m s, l ≤ s.params.bufCap := by
  obtain ⟨-, hk, hiv⟩ := hr
  obtain ⟨h64, -⟩ := hp
  have hkey : s.keyLen.toNat ≤ 32 := by rcases hk with h | h | h <;> omega
  cases m
  case ecb => simp [modeLengths]; omega
  all_goals
    simp only [reduceCtorEq, false_or] at hiv
    simp [modeLengths]
    omega

/-- DEC past its checks is its transform (42_modes.md R187). -/
theorem decRest_of_fits {m : BMode} {k : Option Scheme} {s : State} (hp : paramsLegal s.params)
    (hr : modeReady m s) (ha : m = .ecb ∨ m = .cbc → s.inLen.toNat % 16 = 0)
    (hc : s.inLen.toNat ≤ s.params.bufCap) :
    decRest m k s =
      runBlocks s (decRequest m s.keyBytes)
        (decCalls m (s.cipherFn (decRequest m s.keyBytes)) s.ivBytes s.inBytes) >>= decOutput k := by
  rw [decRest, (decAlignCheck_eq_ok m _).mpr ha, (capCheck_eq_ok _ _).mpr (modeLengths_fit hp hr.1 hc),
    cmd_ok_bind, cmd_ok_bind]

theorem encRest_of_fits {m : BMode} {k : Option Scheme} {s : State} (hp : paramsLegal s.params)
    (hr : modeReady m s) (ha : m = .ecb ∨ m = .cbc → (s.inLen.toNat + modeOvh k s.inLen.toNat) % 16 = 0)
    (hc : s.inLen.toNat + modeOvh k s.inLen.toNat ≤ s.params.bufCap) :
    encRest m k s = encInput k s >>= fun p =>
      runBlocks s (.encryptBlock s.keyBytes)
        (encCalls m (s.cipherFn (.encryptBlock s.keyBytes)) s.ivBytes p) := by
  rw [← encBlk_of_ready hp hr ha hc, encBlk_eq_modeChecked, modeChecked_of_ready hr]

end Sys2Proof.Machine
end

section
/-! PROOFS. What ENC encrypts and what DEC strips, the block requests in their order, and the ends of ENC
and DEC (42_modes.md R186, R187, R212). -/

namespace Sys2Proof.Machine

/-! ### What ENC encrypts and what DEC makes of it -/

theorem ovh_padB_eq_modeOvh (k : Scheme) (n : Nat) : ovh n (padB k Config.cipherBlock) = modeOvh (some k) n := by
  rw [padB_cipherBlock]
  rfl

theorem encInput_some (k : Scheme) (s : State) :
    encInput (some k) s =
      trailer s k (modeOvh (some k) s.inLen.toNat) >>= fun t => .ok (s.inBytes ++ t) := by
  rw [← ovh_padB_eq_modeOvh]
  rfl

theorem modePadSize_bounds (k : Scheme) : 0 < modePadSize k ∧ modePadSize k ≤ 16 := by
  cases k <;> decide

/-- The overhead of a scheme is between 1 and its block size (40_padding.md R100). -/
theorem modeOvh_bounds (k : Scheme) (n : Nat) : 1 ≤ modeOvh (some k) n ∧ modeOvh (some k) n ≤ modePadSize k :=
  ovh_bounds n (modePadSize k) (modePadSize_bounds k).1

theorem add_modeOvh_mod (k : Scheme) (n : Nat) : (n + modeOvh (some k) n) % modePadSize k = 0 :=
  add_ovh_mod n (modePadSize k) (modePadSize_bounds k).1

theorem modeOvh_le (k : Option Scheme) (n : Nat) : modeOvh k n ≤ 16 := by
  cases k with
  | none => exact Nat.zero_le _
  | some k => exact (modeOvh_bounds k n).2.trans (modePadSize_bounds k).2

/-- A padded length that is no multiple of 16 is IN_LEN itself or, with PKCS5, an odd multiple of 8, so it does
not pass the multiple 2^64. -/
theorem add_modeOvh_lt_of_misaligned {k : Option Scheme} {n : Nat} (hn : n < 2 ^ 64)
    (hmis : (n + modeOvh k n) % 16 ≠ 0) : n + modeOvh k n < 2 ^ 64 := by
  cases k with
  | none => exact hn
  | some k =>
    cases k
    case pkcs5 =>
      simp only [modeOvh, modePadSize] at hmis ⊢
      omega
    all_goals exact absurd (add_modeOvh_mod _ n) hmis

/-- A filler that is asked for and answered gives the trailer of the table (40_padding.md R102). -/
theorem trailer_of_answered {s : State} {k : Scheme} {ov : Nat} {r : Bytes}
    (h : k = .iso10126 → ov ≠ 1 → s.ask (.rngFill (ov - 1)) = some (.bytes r)) :
    trailer s k ov = .ok (trailerBytes k ov r) := by
  cases k
  case iso10126 =>
    by_cases h1 : ov = 1
    · simp [trailer, trailerBytes, h1]
    · rw [trailer_of_filler s h1, askBytes, h rfl h1, trailerBytes, if_neg h1]
      rfl
  all_goals rfl

theorem encInput_of_answered {s : State} {k : Option Scheme} {r : Bytes}
    (h : k = some .iso10126 → modeOvh k s.inLen.toNat ≠ 1 →
      s.ask (.rngFill (modeOvh k s.inLen.toNat - 1)) = some (.bytes r)) :
    encInput k s = .ok (modeInput k s r) := by
  cases k with
  | none => rfl
  | some k =>
    rw [encInput_some, trailer_of_answered fun hk => h (congrArg some hk)]
    rfl

/-- What is encrypted is IN, or IN and a trailer of the table. -/
theorem exists_trailer_of_encInput_eq_ok {s : State} {k : Scheme} {p : Bytes} (h : encInput (some k) s = .ok p) :
    ∃ r, r.length = modeOvh (some k) s.inLen.toNat - 1 ∧
      p = s.inBytes ++ trailerBytes k (modeOvh (some k) s.inLen.toNat) r := by
  rw [encInput_some] at h
  obtain ⟨t, ht, hp⟩ := cmd_bind_eq_ok.mp h
  obtain ⟨r, hr, rfl⟩ := exists_filler_of_trailer_eq_ok ht
  cases hp
  exact ⟨r, hr, rfl⟩

theorem length_of_encInput_eq_ok {s : State} {k : Option Scheme} {p : Bytes} (h : encInput k s = .ok p) :
    p.length = s.inLen.toNat + modeOvh k s.inLen.toNat := by
  cases k with
  | none => cases h; exact inBytes_length s
  | some k =>
    obtain ⟨r, hr, rfl⟩ := exists_trailer_of_encInput_eq_ok h
    rw [List.length_append, inBytes_length, trailerBytes_length (modeOvh_bounds k _).1 hr]

theorem decOutput_some (k : Scheme) (p : Bytes) :
    decOutput (some k) p =
      if p.length % modePadSize k ≠ 0 then raise .invalidData p.length else stripOr k p (modePadSize k) := by
  rw [decOutput, padB_cipherBlock, unpadAlignCheck]
  split_ifs <;> rfl

/-- Stripping what ENC encrypted gives IN back (40_padding.md R120). -/
theorem decOutput_of_encInput_eq_ok {s : State} {k : Option Scheme} {p : Bytes} (h : encInput k s = .ok p)
    (hzero : k = some .zero → s.inBytes.getLast? ≠ some 0x00) : decOutput k p = .ok s.inBytes := by
  have hlen := length_of_encInput_eq_ok h
  cases k with
  | none => cases h; rfl
  | some k =>
    obtain ⟨r, hr, rfl⟩ := exists_trailer_of_encInput_eq_ok h
    obtain ⟨h1, hle⟩ := modeOvh_bounds k s.inLen.toNat
    have h16 := (modePadSize_bounds k).2
    rw [decOutput_some, hlen, if_neg (not_not.mpr (add_modeOvh_mod k _)), stripOr,
      strip_append_trailer_of_no_zero (fun hk => hzero (congrArg some hk)) h1 hle (by omega) hr]

/-! ### The block requests in their order (42_modes.md R212) -/

/-- Two ciphers that agree up to a call ask the same there. -/
theorem Chain.calls_agree_up_to {c : Chain} {f g : Bytes → Bytes} {prev : Bytes} {bs : List Bytes}
    {pre post : List BlockCall} {x : BlockCall} (h : c.calls g prev bs = pre ++ x :: post)
    (hpre : ∀ y ∈ pre, f y.input = g y.input) :
    ∃ x' post', c.calls f prev bs = pre ++ x' :: post' ∧ x'.input = x.input := by
  induction pre generalizing prev bs with
  | nil =>
    cases bs with
    | nil => cases h
    | cons b bs =>
      cases h
      exact ⟨_, _, rfl, rfl⟩
  | cons y pre ih =>
    cases bs with
    | nil => cases h
    | cons b bs =>
      obtain ⟨rfl, htail⟩ := List.cons.inj h
      obtain ⟨hhead, hpre⟩ := List.forall_mem_cons.mp hpre
      dsimp only at hhead
      obtain ⟨x', post', hcalls, hinput⟩ := ih htail hpre
      refine ⟨x', post', ?_, hinput⟩
      rw [calls, hhead, hcalls]
      rfl

theorem askAll_append_cons {s : State} {qs rest : List Request} {q : Request} (h : askAll s qs = .ok ())
    (hq : s.ask q = none) : askAll s (qs ++ q :: rest) = .error (.wait q) := by
  induction qs with
  | nil => simp [askAll, hq]
  | cons q' qs ih =>
    rw [List.cons_append, askAll]
    rw [askAll] at h
    cases ha : s.ask q' with
    | none => simp [ha] at h
    | some a => exact ih (by simpa [ha] using h)

section
variable {s : State} {q : Bytes → Request} {f : Bytes → Bytes}

theorem cipherFn_of_ask {x y : Bytes} (h : s.ask (q x) = some (.bytes y)) : s.cipherFn q x = y := by
  rw [State.cipherFn, h]

theorem runBlocks_of_first_unanswered {pre post : List BlockCall} {x : BlockCall}
    (hpre : ∀ y ∈ pre, s.ask (q y.input) = some (.bytes (f y.input))) (hx : s.ask (q x.input) = none) :
    runBlocks s q (pre ++ x :: post) = .error (.wait (q x.input)) := by
  have hall : askAll s (pre.map fun y => q y.input) = .ok () :=
    (askAll_eq_ok s _).mpr fun r hr => by
      obtain ⟨y, hy, rfl⟩ := List.mem_map.mp hr
      exact ⟨_, hpre y hy⟩
  rw [runBlocks, List.map_append, List.map_cons, askAll_append_cons hall hx]
  rfl

/-- A transform on the answers had so far waits at its first call that has none. -/
theorem runBlocks_calls_of_first_unanswered {c : Chain} {prev : Bytes} {bs : List Bytes}
    {pre post : List BlockCall} {x : BlockCall} (h : c.calls f prev bs = pre ++ x :: post)
    (hpre : ∀ y ∈ pre, s.ask (q y.input) = some (.bytes (f y.input))) (hx : s.ask (q x.input) = none) :
    runBlocks s q (c.calls (s.cipherFn q) prev bs) = .error (.wait (q x.input)) := by
  obtain ⟨x', post', hcalls, hinput⟩ := Chain.calls_agree_up_to h fun y hy => cipherFn_of_ask (hpre y hy)
  rw [hcalls, ← hinput]
  exact runBlocks_of_first_unanswered hpre (hinput ▸ hx)

theorem runBlocks_encCalls_of_answered {m : BMode} {iv p : Bytes}
    (h : ∀ x ∈ encCalls m f iv p, s.ask (q x.input) = some (.bytes (f x.input))) :
    runBlocks s q (encCalls m (s.cipherFn q) iv p) = .ok (joined (encCalls m f iv p)) := by
  rw [encCalls_congr fun x hx => cipherFn_of_ask (h x hx)]
  exact runBlocks_of_answered h

theorem runBlocks_decCalls_of_answered {m : BMode} {iv p : Bytes}
    (h : ∀ x ∈ decCalls m f iv p, s.ask (q x.input) = some (.bytes (f x.input))) :
    runBlocks s q (decCalls m (s.cipherFn q) iv p) = .ok (joined (decCalls m f iv p)) := by
  rw [decCalls_congr fun x hx => cipherFn_of_ask (h x hx)]
  exact runBlocks_of_answered h

/-- A transform that is through has had a block for each of its requests. -/
theorem answered_of_runBlocks_eq_ok {calls : List BlockCall} {out : Bytes}
    (hq : ∀ x a, s.ask (q x) = some a → ∃ y, a = .bytes y ∧ y.length = 16)
    (h : runBlocks s q calls = .ok out) :
    out = joined calls ∧ ∀ x ∈ calls,
      s.ask (q x.input) = some (.bytes (s.cipherFn q x.input)) ∧ (s.cipherFn q x.input).length = 16 := by
  obtain ⟨hall, hout⟩ := check_bind_eq_ok.mp h
  cases hout
  refine ⟨rfl, fun x hx => ?_⟩
  obtain ⟨a, ha⟩ := (askAll_eq_ok s _).mp hall _ (List.mem_map_of_mem hx)
  obtain ⟨y, rfl, hy⟩ := hq _ a ha
  rw [cipherFn_of_ask ha]
  exact ⟨ha, hy⟩

end

theorem decRequest_eq (m : BMode) (key x : Bytes) : decRequest m key x = decBlockRequest m key x := by
  cases m <;> rfl

/-! ### The ends of ENC and DEC -/

theorem exec_enc_of_encInput {m : BMode} {k : Option Scheme} {s : State} {p : Bytes} (hp : paramsLegal s.params)
    (hr : modeReady m s) (ha : m = .ecb ∨ m = .cbc → (s.inLen.toNat + modeOvh k s.inLen.toNat) % 16 = 0)
    (hc : s.inLen.toNat + modeOvh k s.inLen.toNat ≤ s.params.bufCap) (hin : encInput k s = .ok p) :
    exec (Command.enc m k).instr s =
      .next (conclude s (runBlocks s (.encryptBlock s.keyBytes)
        (encCalls m (s.cipherFn (.encryptBlock s.keyBytes)) s.ivBytes p))) := by
  rw [exec_enc, modeChecked_of_ready hr, encRest_of_fits hp hr ha hc, hin, cmd_ok_bind]

theorem exec_dec_of_fits {m : BMode} {k : Option Scheme} {s : State} (hp : paramsLegal s.params)
    (hr : modeReady m s) (ha : m = .ecb ∨ m = .cbc → s.inLen.toNat % 16 = 0)
    (hc : s.inLen.toNat ≤ s.params.bufCap) :
    exec (Command.dec m k).instr s =
      .next (conclude s (runBlocks s (decRequest m s.keyBytes)
        (decCalls m (s.cipherFn (decRequest m s.keyBytes)) s.ivBytes s.inBytes) >>= decOutput k)) := by
  rw [exec_dec, modeChecked_of_ready hr, decRest_of_fits hp hr ha hc]

/-- An ENC command that succeeds has passed its checks, had its answers and put out the transform. -/
theorem enc_success {m : BMode} {k : Option Scheme} {s t : State} (hbusy : s.busy = true)
    (h : exec (Command.enc m k).instr s = .next t) (hidle : t.busy = false) (hok : t.err = .ok) :
    modeReady m s ∧ (m = .ecb ∨ m = .cbc → (s.inLen.toNat + modeOvh k s.inLen.toNat) % 16 = 0) ∧
      s.inLen.toNat + modeOvh k s.inLen.toNat ≤ s.params.bufCap ∧
      ∃ p out, encInput k s = .ok p ∧ runBlocks s (.encryptBlock s.keyBytes)
        (encCalls m (s.cipherFn (.encryptBlock s.keyBytes)) s.ivBytes p) = .ok out ∧ t = finish s out := by
  rw [exec_enc] at h
  cases h
  obtain ⟨out, hout⟩ := eq_ok_of_conclude (encBlk_goodEnd m k s) hbusy hidle hok
  rw [encBlk_eq_modeChecked] at hout
  rw [hout]
  obtain ⟨hready, hrest⟩ := modeChecked_eq_ok.mp hout
  rw [encRest, check_bind_eq_ok, check_bind_eq_ok, encAlignCheck_eq_ok, capCheck_eq_ok, paddedLen_eq] at hrest
  obtain ⟨halign, hcap, hrun⟩ := hrest
  obtain ⟨p, hin, hrun⟩ := cmd_bind_eq_ok.mp hrun
  exact ⟨hready, halign, hcap _ (by simp), p, out, hin, hrun, rfl⟩

/-- Decryption does not look at the IV in ECB. -/
theorem decCalls_congr_iv {m : BMode} {iv iv' : Bytes} (h : m = .ecb ∨ iv = iv') (f : Bytes → Bytes) (c : Bytes) :
    decCalls m f iv c = decCalls m f iv' c := by
  rcases h with rfl | rfl <;> rfl

/-- The answers of two commands, kept in one lawful transcript, are one cipher's. -/
theorem sameCipher_of_transcript {m : BMode} {l : List Answered} {k x y x' y' : Bytes} (hl : transcriptLawful l)
    (henc : ⟨.encryptBlock k x, .bytes y⟩ ∈ l) (hdec : ⟨decRequest m k x', .bytes y'⟩ ∈ l) :
    sameCipher m x y x' y' :=
  sameCipher_of_agrees ((hl _ henc).2 _ hdec)

theorem mem_answers_of_ask {s : State} {q : Request} {a : Answer} (h : s.ask q = some a) : ⟨q, a⟩ ∈ s.answers :=
  (findAnswer_fits h).2

/-- What an idle end of a block run is: the run is through. -/
theorem runBlocks_eq_ok_of_idle {s : State} {q : Bytes → Request} {calls : List BlockCall} {f : Bytes → Cmd Bytes}
    (hbusy : s.busy = true) (hidle : (conclude s (runBlocks s q calls >>= f)).busy = false) :
    ∃ out, runBlocks s q calls = .ok out := by
  rcases runBlocks_cases s q calls with ⟨-, h⟩ | ⟨r, -, h⟩
  · exact ⟨_, h⟩
  · rw [h, cmd_error_bind, conclude_wait, waitFor_busy, hbusy] at hidle
    cases hidle

end Sys2Proof.Machine
end

section
/-! PROOFS. The obligations of 42_modes.md about ENC and DEC, from the lemmas above. -/

namespace Sys2Proof.Proofs

open Sys2Proof.Machine

/-- Settles O51: the block answers of both commands are one cipher's, so the transforms undo each other, and
`Strip` undoes the trailer. -/
theorem modeRoundTrip : Obligations.ModeRoundTrip := by
  intro m k s t u v hinv hanswers hbusy hbusy' henc hidle hok hparams hin hkey hiv hinit hzero hdec hidle'
  obtain ⟨hready, halign, hcap, p, out, hp, hrun, rfl⟩ := enc_success hbusy henc hidle hok
  obtain ⟨hout, hE⟩ := answered_of_runBlocks_eq_ok (fun _ _ => ask_encryptBlock) hrun
  have hcap28 : s.params.bufCap ≤ 2 ^ 28 := hparams ▸ hinv.params.2
  have hplen := length_of_encInput_eq_ok hp
  have hcbc : m = .cbc → s.ivBytes.length = 16 := by
    rintro rfl
    simpa using hready.1.2.2
  have houtlen : out.length = s.inLen.toNat + modeOvh k s.inLen.toNat := by
    rw [hout, encCalls_length m _ _ _ (fun x hx => (hE x hx).2) (hplen ▸ halign), hplen]
  rw [outBytes_finish s out (by omega)] at hin
  have hulen : u.inLen.toNat = s.inLen.toNat + modeOvh k s.inLen.toNat := by
    rw [← inBytes_length, hin, houtlen]
  have hready' : modeReady m u := by
    obtain ⟨⟨hn, hk, hivlen⟩, -⟩ := hready
    refine ⟨⟨by omega, ?_, ?_⟩, hinit⟩
    · rwa [← keyBytes_length, hkey, keyBytes_length]
    · rcases hiv with hm | hiv
      · exact .inl hm
      · rwa [← ivBytes_length, hiv, ivBytes_length]
  rw [exec_dec_of_fits hinv.params hready' (hulen ▸ halign) (by rw [hulen, hparams]; exact hcap)] at hdec
  cases hdec
  obtain ⟨p', hrun'⟩ := runBlocks_eq_ok_of_idle hbusy' hidle'
  obtain ⟨hp', hF⟩ := answered_of_runBlocks_eq_ok (fun _ _ => ask_decRequest) hrun'
  have hback : p' = p := by
    rw [hp', hin, hout, decCalls_congr_iv hiv]
    refine decCalls_undoes_encCalls (hplen ▸ halign) hcbc (fun x hx => (hE x hx).2) fun x hx x' hx' => ?_
    rw [hin, hout, decCalls_congr_iv hiv] at hF
    refine sameCipher_of_transcript hinv.lawsKept
      (hanswers _ (mem_answers_of_ask (hE x hx).1)) (hinv.answersKept _ ?_)
    rw [← hkey]
    exact mem_answers_of_ask (hF x' hx').1
  rw [hrun', cmd_ok_bind, hback, decOutput_of_encInput_eq_ok hp hzero]
  exact ⟨rfl, outBytes_finish u _ (by rw [inBytes_length]; omega)⟩

/-- Settles O46: past the checks the trailer is the table's and the transform is through. -/
theorem encCompletes : Obligations.EncCompletes := by
  intro m k s E r hp hr halign hcap hfill hE
  have hin : encInput k s = .ok (modeInput k s r) := encInput_of_answered hfill
  refine ⟨?_, ?_⟩
  · rw [exec_enc_of_encInput hp hr halign hcap hin, runBlocks_encCalls_of_answered hE]
    rfl
  · have hlen := length_of_encInput_eq_ok hin
    rw [encCalls_length m _ _ _ (fun x hx => ?_) (hlen ▸ halign), hlen]
    simpa using ask_encryptBlock (hE x hx)

/-- Settles O47: past the checks the transform is through, and its output ends by the removal. -/
theorem decCompletes : Obligations.DecCompletes := by
  intro m k s F p hp hr halign hcap hF hout
  simp only [← decRequest_eq] at hF
  have hiv : m = .cbc → s.ivBytes.length = 16 := by
    rintro rfl
    simpa using hr.1.2.2
  have hlen : p.length = s.inLen.toNat := by
    rw [hout, decCalls_length m _ _ _ (fun x hx => ?_) hiv (by rwa [inBytes_length]), inBytes_length]
    simpa using ask_decRequest (hF x hx)
  have hexec : exec (Command.dec m k).instr s = .next (conclude s (decOutput k p)) := by
    rw [exec_dec_of_fits hp hr halign hcap, runBlocks_decCalls_of_answered hF, cmd_ok_bind, hout]
  refine ⟨hlen, ?_, ?_, ?_, ?_⟩
  · rintro rfl
    exact hexec
  · rintro c rfl hmis
    rw [hexec, decOutput_some, hlen, if_pos hmis, conclude_raise]
  · rintro c out rfl hmul hstrip
    rw [hexec, decOutput_some, hlen, if_neg (not_not.mpr hmul), stripOr, hstrip, conclude_ok]
  · rintro c rfl hmul hstrip
    rw [hexec, decOutput_some, hlen, if_neg (not_not.mpr hmul), stripOr, hstrip, hlen, conclude_raise]

/-- Settles O48: the checks one after the other. PL overflows 64 bits in no error it is the payload of, since
it is then no multiple of 16, or IN_LEN fits the buffer. -/
theorem encErrors : Obligations.EncErrors := by
  intro m k s pl hp hpl
  simp only [exec_enc]
  refine ⟨fun hn => ?_, fun hn hk => ?_, fun hn hk hm hiv => ?_, fun hn hk hm hiv => ?_, fun hv hask => ?_,
    fun hv hask => ?_, fun hr hm hmis => ⟨?_, ?_⟩, fun hr halign hlong => ?_, fun hr halign hin hlong => ⟨?_, ?_⟩,
    fun hr hcap hk hov hask => ?_⟩
  · rw [modeChecked_of_empty hn, conclude_raise]
  · rw [modeChecked_of_invalid_key hn hk, conclude_raise]
  · rw [modeChecked_of_invalid_iv hn hk hm hiv, conclude_raise]
  · rw [modeChecked_of_iv_mismatch hn hk hm hiv, conclude_raise]
  · rw [modeChecked_of_unanswered hv hask, conclude_wait]
  · rw [modeChecked_of_init_failed hv hask, conclude_raise]
  · rw [modeChecked_of_ready hr, encRest, paddedLen_eq, ← hpl, encAlignCheck_of_misaligned hm hmis,
      cmd_raise_bind, conclude_raise]
  · subst hpl
    exact add_modeOvh_lt_of_misaligned s.inLen.isLt hmis
  · rw [modeChecked_of_ready hr, encRest, paddedLen_eq, ← hpl, (encAlignCheck_eq_ok m pl).mpr halign, cmd_ok_bind,
      capCheck_modeLengths_of_long hlong, cmd_raise_bind, conclude_raise]
  · rw [modeChecked_of_ready hr, encRest, paddedLen_eq, ← hpl, (encAlignCheck_eq_ok m pl).mpr halign, cmd_ok_bind,
      capCheck_append_cons _ _ _ [] (modeLengths_fit hp hr.1 hin) hlong, cmd_raise_bind, conclude_raise]
  · have hcap28 := hp.2
    have hov := modeOvh_le k s.inLen.toNat
    omega
  · subst hk
    have halign : pl % 16 = 0 := hpl ▸ add_modeOvh_mod .iso10126 s.inLen.toNat
    rw [modeChecked_of_ready hr, encRest_of_fits hp hr (fun _ => hpl ▸ halign) (hpl ▸ hcap), encInput_some,
      trailer_of_filler s hov, askBytes, hask]
    rfl

/-- Settles O49: the checks one after the other. -/
theorem decErrors : Obligations.DecErrors := by
  intro m k s hp
  simp only [exec_dec]
  refine ⟨fun hn => ?_, fun hn hk => ?_, fun hn hk hm hiv => ?_, fun hn hk hm hiv => ?_, fun hv hask => ?_,
    fun hv hask => ?_, fun hr hm hmis => ?_, fun hr halign hlong => ?_⟩
  · rw [modeChecked_of_empty hn, conclude_raise]
  · rw [modeChecked_of_invalid_key hn hk, conclude_raise]
  · rw [modeChecked_of_invalid_iv hn hk hm hiv, conclude_raise]
  · rw [modeChecked_of_iv_mismatch hn hk hm hiv, conclude_raise]
  · rw [modeChecked_of_unanswered hv hask, conclude_wait]
  · rw [modeChecked_of_init_failed hv hask, conclude_raise]
  · rw [modeChecked_of_ready hr, decRest, decAlignCheck_of_misaligned hm hmis, cmd_raise_bind, conclude_raise]
  · have hcap := capCheck_modeLengths_of_long (m := m) hlong []
    rw [List.append_nil] at hcap
    rw [modeChecked_of_ready hr, decRest, (decAlignCheck_eq_ok m _).mpr halign, cmd_ok_bind, hcap, cmd_raise_bind,
      conclude_raise]

/-- Settles O50: the filler's request comes before the transform, and the transform waits at its first
request without an answer. -/
theorem requestsInOrder : Obligations.RequestsInOrder := by
  intro m k s hp hr
  refine ⟨fun halign hcap => ⟨fun hk hov hask => ?_, fun E r pre post x hfill hcalls hpre hx => ?_⟩,
    fun halign hcap F pre post x hcalls hpre hx => ?_⟩
  · subst hk
    rw [exec_enc, modeChecked_of_ready hr, encRest_of_fits hp hr halign hcap, encInput_some,
      trailer_of_filler s hov, askBytes, hask]
    rfl
  · rw [encCalls_eq_calls] at hcalls
    rw [exec_enc_of_encInput hp hr halign hcap (encInput_of_answered hfill), encCalls_eq_calls,
      runBlocks_calls_of_first_unanswered hcalls hpre hx, conclude_wait]
  · simp only [← decRequest_eq] at hpre hx ⊢
    rw [decCalls_eq_calls] at hcalls
    rw [exec_dec_of_fits hp hr halign hcap, decCalls_eq_calls,
      runBlocks_calls_of_first_unanswered hcalls hpre hx, cmd_error_bind, conclude_wait]

end Sys2Proof.Proofs
end

section
/-! PROOFS. The GCM commands by their checks, and what they do once the AEAD is constructed
(42_modes.md R188, R189). -/

namespace Sys2Proof.Machine

/-! ### The checks that ENC.GCM and DEC.GCM share -/

/-- The checks of a GCM command up to the construction of the AEAD, and then the rest. -/
def gcmChecked (v : GVar) (s : State) (rest : Cmd Bytes) : Cmd Bytes := do
  emptyData s.inLen.toNat
  validKeySize s.keyLen.toNat
  nonceCheck v s.ivLen.toNat
  validTagSize (gcmTag v s)
  askInit s (.cipherInit s.keyBytes)
  askInit s (.aeadInit s.ivLen.toNat (gcmTag v s))
  rest

/-- ENC.GCM once the AEAD is constructed (42_modes.md R188). -/
def gcmEncRest (v : GVar) (s : State) : Cmd Bytes := do
  validDataSize s.inLen.toNat Config.cipherBlock
  capCheck s.params.bufCap
    [s.inLen.toNat, s.keyLen.toNat, s.ivLen.toNat, s.aadLen.toNat, s.inLen.toNat + gcmTag v s]
  askData s (.sealData (gcmTag v s) s.keyBytes s.ivBytes s.inBytes s.aadBytes)

/-- DEC.GCM once the AEAD is constructed (42_modes.md R189). -/
def gcmDecRest (v : GVar) (s : State) : Cmd Bytes := do
  gcmDecSizeCheck s.inLen.toNat (gcmTag v s)
  capCheck s.params.bufCap [s.inLen.toNat, s.keyLen.toNat, s.ivLen.toNat, s.aadLen.toNat]
  gcmShortCheck s.inLen.toNat (gcmTag v s)
  askBytes s (.openData (gcmTag v s) s.keyBytes s.ivBytes s.inBytes s.aadBytes) .authenticationFailed 0

theorem tagSize_eq_gcmTag (v : GVar) (s : State) : s.tagSize v = gcmTag v s := by
  cases v <;> rfl

theorem gcmEnc_eq_gcmChecked (v : GVar) (s : State) : gcmEnc v s = gcmChecked v s (gcmEncRest v s) := by
  rw [gcmEnc, tagSize_eq_gcmTag]
  rfl

theorem gcmDec_eq_gcmChecked (v : GVar) (s : State) : gcmDec v s = gcmChecked v s (gcmDecRest v s) := by
  rw [gcmDec, tagSize_eq_gcmTag]
  rfl

theorem exec_encGcm (v : GVar) (s : State) :
    exec (Command.encGcm v).instr s = .next (conclude s (gcmChecked v s (gcmEncRest v s))) := by
  rw [exec_instr, ← gcmEnc_eq_gcmChecked]
  rfl

theorem exec_decGcm (v : GVar) (s : State) :
    exec (Command.decGcm v).instr s = .next (conclude s (gcmChecked v s (gcmDecRest v s))) := by
  rw [exec_instr, ← gcmDec_eq_gcmChecked]
  rfl

theorem nonceCheck_eq_ok_iff (v : GVar) (n : Nat) : nonceCheck v n = .ok () ↔ nonceOk v n := by
  rw [nonceCheck_eq_ok, nonceOk]
  split_ifs <;> simp [*]

theorem nonceCheck_of_invalid {v : GVar} {n : Nat} (h : ¬ nonceOk v n) :
    nonceCheck v n = raise .invalidNonceSize n := by
  cases v
  case nonce =>
    obtain rfl : n = 0 := by simpa [nonceOk] using h
    rfl
  all_goals exact if_pos h

section
variable {v : GVar} {s : State} {rest : Cmd Bytes}

theorem gcmChecked_of_empty (h : s.inLen.toNat = 0) : gcmChecked v s rest = raise .emptyData 0 := by
  rw [gcmChecked, emptyData, if_pos h, cmd_raise_bind]

theorem gcmChecked_of_invalid_key (hn : s.inLen.toNat ≠ 0) (hk : ¬ isAesSize s.keyLen.toNat) :
    gcmChecked v s rest = raise .invalidKeySize s.keyLen.toNat := by
  rw [gcmChecked, (emptyData_eq_ok _).mpr hn, validKeySize_eq, if_neg hk, cmd_ok_bind, cmd_raise_bind]

theorem gcmChecked_of_invalid_nonce (hn : s.inLen.toNat ≠ 0) (hk : isAesSize s.keyLen.toNat)
    (hiv : ¬ nonceOk v s.ivLen.toNat) : gcmChecked v s rest = raise .invalidNonceSize s.ivLen.toNat := by
  rw [gcmChecked, (emptyData_eq_ok _).mpr hn, (validKeySize_eq_ok _).mpr hk, nonceCheck_of_invalid hiv,
    cmd_ok_bind, cmd_ok_bind, cmd_raise_bind]

theorem gcmChecked_of_sizes (hn : s.inLen.toNat ≠ 0) (hk : isAesSize s.keyLen.toNat)
    (hiv : nonceOk v s.ivLen.toNat) :
    gcmChecked v s rest = validTagSize (gcmTag v s) >>= fun _ => askInit s (.cipherInit s.keyBytes) >>= fun _ =>
      askInit s (.aeadInit s.ivLen.toNat (gcmTag v s)) >>= fun _ => rest := by
  rw [gcmChecked, (emptyData_eq_ok _).mpr hn, (validKeySize_eq_ok _).mpr hk, (nonceCheck_eq_ok_iff v _).mpr hiv,
    cmd_ok_bind, cmd_ok_bind, cmd_ok_bind]

theorem gcmChecked_of_invalid_tag (hn : s.inLen.toNat ≠ 0) (hk : isAesSize s.keyLen.toNat)
    (hiv : nonceOk v s.ivLen.toNat) (ht : gcmTag v s < 12 ∨ 16 < gcmTag v s) :
    gcmChecked v s rest = raise .invalidTagSize (gcmTag v s) := by
  rw [gcmChecked_of_sizes hn hk hiv, validTagSize, if_pos ht, cmd_raise_bind]

theorem gcmChecked_of_valid (h : gcmValid v s) :
    gcmChecked v s rest = askInit s (.cipherInit s.keyBytes) >>= fun _ =>
      askInit s (.aeadInit s.ivLen.toNat (gcmTag v s)) >>= fun _ => rest := by
  obtain ⟨hn, hk, hiv, ht⟩ := h
  rw [gcmChecked_of_sizes hn hk hiv, (validTagSize_eq_ok _).mpr ht, cmd_ok_bind]

theorem gcmChecked_of_cipher (h : gcmValid v s) (hc : s.ask (.cipherInit s.keyBytes) = some .ok) :
    gcmChecked v s rest = askInit s (.aeadInit s.ivLen.toNat (gcmTag v s)) >>= fun _ => rest := by
  rw [gcmChecked_of_valid h, (askInit_eq_ok rfl).mpr hc, cmd_ok_bind]

theorem gcmChecked_of_ready (h : gcmReady v s) : gcmChecked v s rest = rest := by
  obtain ⟨hvalid, hcipher, haead⟩ := h
  rw [gcmChecked_of_cipher hvalid hcipher, (askInit_eq_ok rfl).mpr haead, cmd_ok_bind]

/-- A command that succeeds has passed the checks. -/
theorem gcmChecked_eq_ok {out : Bytes} : gcmChecked v s rest = .ok out ↔ gcmReady v s ∧ rest = .ok out := by
  simp only [gcmChecked, check_bind_eq_ok, emptyData_eq_ok, validKeySize_eq_ok, nonceCheck_eq_ok_iff,
    validTagSize_eq_ok, askInit_eq_ok (q := .cipherInit s.keyBytes) rfl,
    askInit_eq_ok (q := .aeadInit s.ivLen.toNat (gcmTag v s)) rfl, gcmReady, gcmValid, isAesSize, and_assoc]

end

/-! ### The checks once the AEAD is constructed -/

/-- A legal key fits its buffer (00_scope.md R9). -/
theorem keyLen_le_bufCap {s : State} (hp : paramsLegal s.params) (hk : isAesSize s.keyLen.toNat) :
    s.keyLen.toNat ≤ s.params.bufCap := by
  have h64 := hp.1
  rcases hk with h | h | h <;> omega

/-- The bound on the data is (2^32 - 2) * 16, exactly (42_modes.md R188). -/
theorem validDataSize_cipherBlock (n : Nat) :
    validDataSize n Config.cipherBlock = if 68719476704 < n then raise .dataTooLarge n else .ok () := rfl

/-- The bound is on IN_LEN - t, which is 0 where it is not checked (42_modes.md R189). -/
theorem gcmDecSizeCheck_eq (n t : Nat) :
    gcmDecSizeCheck n t = if 68719476704 < n - t then raise .dataTooLarge (n - t) else .ok () := by
  rw [gcmDecSizeCheck, validDataSize_cipherBlock]
  by_cases h : n > t
  · rw [if_pos h]
  · rw [if_neg h, if_neg (by omega)]

section
variable {v : GVar} {s : State}

/-- Data within the bound leaves the lengths to check; those ENC.GCM and DEC.GCM share come first. -/
theorem exec_gcm_of_bounded {i : Instr} (hr : gcmReady v s)
    (hi : i = (Command.encGcm v).instr ∨ i = (Command.decGcm v).instr)
    (henc : i = (Command.encGcm v).instr → s.inLen.toNat ≤ 68719476704)
    (hdec : i = (Command.decGcm v).instr → s.inLen.toNat - gcmTag v s ≤ 68719476704) :
    ∃ (more : List Nat) (rest : Unit → Cmd Bytes), exec i s = .next (conclude s
      (capCheck s.params.bufCap ([s.inLen.toNat, s.keyLen.toNat, s.ivLen.toNat, s.aadLen.toNat] ++ more) >>=
        rest)) := by
  rcases hi with rfl | rfl
  · refine ⟨[s.inLen.toNat + gcmTag v s],
      fun _ => askData s (.sealData (gcmTag v s) s.keyBytes s.ivBytes s.inBytes s.aadBytes), ?_⟩
    rw [exec_encGcm, gcmChecked_of_ready hr, gcmEncRest, validDataSize_cipherBlock,
      if_neg (Nat.not_lt.mpr (henc rfl)), cmd_ok_bind]
    rfl
  · refine ⟨[], fun _ => gcmShortCheck s.inLen.toNat (gcmTag v s) >>= fun _ =>
      askBytes s (.openData (gcmTag v s) s.keyBytes s.ivBytes s.inBytes s.aadBytes) .authenticationFailed 0, ?_⟩
    rw [exec_decGcm, gcmChecked_of_ready hr, gcmDecRest, gcmDecSizeCheck_eq,
      if_neg (Nat.not_lt.mpr (hdec rfl)), cmd_ok_bind]
    rfl

/-- The first of those lengths that does not fit is reported (60_exceptions.md R245). -/
theorem exec_gcm_of_long {i : Instr} (hr : gcmReady v s)
    (hi : i = (Command.encGcm v).instr ∨ i = (Command.decGcm v).instr)
    (henc : i = (Command.encGcm v).instr → s.inLen.toNat ≤ 68719476704)
    (hdec : i = (Command.decGcm v).instr → s.inLen.toNat - gcmTag v s ≤ 68719476704) {pre post : List Nat} {l : Nat}
    (hsplit : [s.inLen.toNat, s.keyLen.toNat, s.ivLen.toNat, s.aadLen.toNat] = pre ++ l :: post)
    (hpre : ∀ n ∈ pre, n ≤ s.params.bufCap) (hl : s.params.bufCap < l) :
    exec i s = .next (raiseErr s .capacityExceeded l) := by
  obtain ⟨more, rest, h⟩ := exec_gcm_of_bounded hr hi henc hdec
  rw [h, hsplit, List.append_assoc, List.cons_append, capCheck_append_cons _ _ _ _ hpre hl, cmd_raise_bind,
    conclude_raise]

theorem gcmLengths_fit (hp : paramsLegal s.params) (hr : gcmReady v s) (hf : gcmFits s) :
    ∀ l ∈ [s.inLen.toNat, s.keyLen.toNat, s.ivLen.toNat, s.aadLen.toNat], l ≤ s.params.bufCap := by
  obtain ⟨hin, hiv, haad⟩ := hf
  have hkey := keyLen_le_bufCap hp hr.1.2.1
  simp [hin, hkey, hiv, haad]

theorem gcmEncRest_of_fits (hp : paramsLegal s.params) (hf : gcmFits s) :
    gcmEncRest v s = capCheck s.params.bufCap
      ([s.inLen.toNat, s.keyLen.toNat, s.ivLen.toNat, s.aadLen.toNat] ++ [s.inLen.toNat + gcmTag v s]) >>=
        fun _ => askData s (.sealData (gcmTag v s) s.keyBytes s.ivBytes s.inBytes s.aadBytes) := by
  have hcap28 := hp.2
  have hin := hf.1
  rw [gcmEncRest, validDataSize_cipherBlock, if_neg (by omega), cmd_ok_bind]
  rfl

/-- ENC.GCM past its checks is its Seal request (42_modes.md R188). -/
theorem exec_encGcm_of_fits (hp : paramsLegal s.params) (hr : gcmReady v s) (hf : gcmFits s)
    (hout : s.inLen.toNat + gcmTag v s ≤ s.params.bufCap) :
    exec (Command.encGcm v).instr s = .next (conclude s
      (askData s (.sealData (gcmTag v s) s.keyBytes s.ivBytes s.inBytes s.aadBytes))) := by
  have hcap : capCheck s.params.bufCap ([s.inLen.toNat, s.keyLen.toNat, s.ivLen.toNat, s.aadLen.toNat] ++
      [s.inLen.toNat + gcmTag v s]) = .ok () := by
    rw [capCheck_eq_ok, List.forall_mem_append]
    exact ⟨gcmLengths_fit hp hr hf, by simpa using hout⟩
  rw [exec_encGcm, gcmChecked_of_ready hr, gcmEncRest_of_fits hp hf, hcap, cmd_ok_bind]

/-- DEC.GCM past its lengths is the comparison with the tag size and its Open request (42_modes.md R189). -/
theorem exec_decGcm_of_fits (hp : paramsLegal s.params) (hr : gcmReady v s) (hf : gcmFits s) :
    exec (Command.decGcm v).instr s = .next (conclude s
      (gcmShortCheck s.inLen.toNat (gcmTag v s) >>= fun _ =>
        askBytes s (.openData (gcmTag v s) s.keyBytes s.ivBytes s.inBytes s.aadBytes)
          .authenticationFailed 0)) := by
  have hcap28 := hp.2
  have hin := hf.1
  rw [exec_decGcm, gcmChecked_of_ready hr, gcmDecRest, gcmDecSizeCheck_eq, if_neg (by omega), cmd_ok_bind,
    (capCheck_eq_ok _ _).mpr (gcmLengths_fit hp hr hf), cmd_ok_bind]

theorem exec_decGcm_of_tag (hp : paramsLegal s.params) (hr : gcmReady v s) (hf : gcmFits s)
    (ht : gcmTag v s ≤ s.inLen.toNat) :
    exec (Command.decGcm v).instr s = .next (conclude s
      (askBytes s (.openData (gcmTag v s) s.keyBytes s.ivBytes s.inBytes s.aadBytes) .authenticationFailed 0)) := by
  rw [exec_decGcm_of_fits hp hr hf, gcmShortCheck, if_neg (Nat.not_lt.mpr ht), cmd_ok_bind]

end

/-! ### The ends of ENC.GCM and DEC.GCM -/

/-- An ENC.GCM command that succeeds has passed its checks and put out the answer to its Seal request. -/
theorem encGcm_success {v : GVar} {s t : State} (hbusy : s.busy = true)
    (h : exec (Command.encGcm v).instr s = .next t) (hidle : t.busy = false) (hok : t.err = .ok) :
    gcmReady v s ∧ gcmFits s ∧ s.inLen.toNat + gcmTag v s ≤ s.params.bufCap ∧
      ∃ y, s.ask (.sealData (gcmTag v s) s.keyBytes s.ivBytes s.inBytes s.aadBytes) = some (.bytes y) ∧
        y.length = s.inLen.toNat + gcmTag v s ∧ t = finish s y := by
  rw [exec_encGcm] at h
  cases h
  obtain ⟨y, hy⟩ := eq_ok_of_conclude (gcmEnc_eq_gcmChecked v s ▸ gcmEnc_goodEnd v s) hbusy hidle hok
  rw [hy]
  obtain ⟨hready, hrest⟩ := gcmChecked_eq_ok.mp hy
  rw [gcmEncRest, check_bind_eq_ok, check_bind_eq_ok, capCheck_eq_ok] at hrest
  obtain ⟨-, hcap, hseal⟩ := hrest
  rcases askData_cases s (.sealData (gcmTag v s) s.keyBytes s.ivBytes s.inBytes s.aadBytes) with
    hwait | ⟨y', hask, hy'⟩
  · cases hwait.symm.trans hseal
  · cases hy'.symm.trans hseal
    refine ⟨hready, ⟨hcap _ (by simp), hcap _ (by simp), hcap _ (by simp)⟩, hcap _ (by simp), y, hask, ?_, rfl⟩
    simpa [Request.fits] using ask_fits hask

/-- A DEC.GCM command whose lengths fit ends, if it ends, with the plaintext that Open answered; or it fails,
where the input is shorter than the tag or Open failed (42_modes.md R189). -/
theorem decGcm_end {v : GVar} {s t : State} (hp : paramsLegal s.params) (hr : gcmReady v s) (hf : gcmFits s)
    (hbusy : s.busy = true) (h : exec (Command.decGcm v).instr s = .next t) (hidle : t.busy = false) :
    (s.inLen.toNat < gcmTag v s ∧ t = raiseErr s .authenticationFailed 0) ∨
      ∃ a, s.ask (.openData (gcmTag v s) s.keyBytes s.ivBytes s.inBytes s.aadBytes) = some a ∧
        ((a = .fail ∧ t = raiseErr s .authenticationFailed 0) ∨ ∃ p, a = .bytes p ∧ t = finish s p) := by
  rcases Nat.lt_or_ge s.inLen.toNat (gcmTag v s) with hlt | hge
  · rw [exec_decGcm_of_fits hp hr hf, gcmShortCheck, if_pos hlt] at h
    cases h
    exact .inl ⟨hlt, rfl⟩
  · rw [exec_decGcm_of_tag hp hr hf hge] at h
    cases h
    refine .inr ?_
    rcases askBytes_cases s (.openData (gcmTag v s) s.keyBytes s.ivBytes s.inBytes s.aadBytes)
      .authenticationFailed 0 with ⟨-, he⟩ | ⟨p, hask, he⟩ | ⟨a, hne, hask, he⟩
    · rw [he, conclude_wait, waitFor_busy, hbusy] at hidle
      cases hidle
    · exact ⟨_, hask, .inr ⟨p, rfl, by rw [he]; rfl⟩⟩
    · refine ⟨a, hask, .inl ⟨?_, by rw [he]; rfl⟩⟩
      have hfits := ask_fits hask
      cases a
      case fail => rfl
      case bytes p => exact absurd rfl (hne p)
      case ok => cases hfits

/-- Where Open can only have failed, DEC.GCM fails. -/
theorem decGcm_fails {v : GVar} {s t : State} (hp : paramsLegal s.params) (hr : gcmReady v s) (hf : gcmFits s)
    (hbusy : s.busy = true) (h : exec (Command.decGcm v).instr s = .next t) (hidle : t.busy = false)
    (hopen : ∀ a, s.ask (.openData (gcmTag v s) s.keyBytes s.ivBytes s.inBytes s.aadBytes) = some a → a = .fail) :
    t = raiseErr s .authenticationFailed 0 := by
  rcases decGcm_end hp hr hf hbusy h hidle with ⟨-, ht⟩ | ⟨a, hask, ⟨-, ht⟩ | ⟨p, rfl, -⟩⟩
  · exact ht
  · exact ht
  · cases hopen _ hask

end Sys2Proof.Machine
end

section
/-! PROOFS. Which pseudocode can raise which code: AUTHENTICATION_FAILED is DEC.GCM's alone
(42_modes.md R189, R207). -/

namespace Sys2Proof.Machine

/-- The pseudocode does not raise this code with this payload. -/
def NeverRaises {α : Type} (code : Code) (arg : Nat) (c : Cmd α) : Prop := c ≠ raise code arg

section
variable {α β : Type} {code code' : Code} {arg arg' : Nat} {s : State}

theorem neverRaises_ok (a : α) : NeverRaises code arg (.ok a) := nofun

theorem neverRaises_wait (q : Request) : NeverRaises code arg (.error (.wait q) : Cmd α) := nofun

theorem neverRaises_raise (h : code' ≠ code) : NeverRaises code arg (raise code' arg' : Cmd α) := by
  rintro ⟨⟩
  exact h rfl

theorem neverRaises_raise_arg (h : arg' ≠ arg) : NeverRaises code arg (raise code' arg' : Cmd α) := by
  rintro ⟨⟩
  exact h rfl

theorem neverRaises_ite {p : Prop} [Decidable p] {c c' : Cmd α} (h : NeverRaises code arg c)
    (h' : NeverRaises code arg c') : NeverRaises code arg (if p then c else c') := by
  split
  · exact h
  · exact h'

theorem NeverRaises.bind {c : Cmd α} {f : α → Cmd β} (hc : NeverRaises code arg c)
    (hf : ∀ a, NeverRaises code arg (f a)) : NeverRaises code arg (c >>= f) := by
  intro heq
  rcases cmd_bind_eq_error.mp heq with h | ⟨a, -, h⟩
  · exact hc h
  · exact hf a h

/-- A check that is one condition, and raises another code. -/
theorem neverRaises_check {p : Prop} [Decidable p] (h : code' ≠ code) :
    NeverRaises code arg (if p then raise code' arg' else .ok () : Cmd Unit) :=
  neverRaises_ite (neverRaises_raise h) (neverRaises_ok ())

theorem neverRaises_check' {p : Prop} [Decidable p] (h : code' ≠ code) :
    NeverRaises code arg (if p then .ok () else raise code' arg' : Cmd Unit) :=
  neverRaises_ite (neverRaises_ok ()) (neverRaises_raise h)

theorem neverRaises_capCheck (h : .capacityExceeded ≠ code) (cap : Nat) (ls : List Nat) :
    NeverRaises code arg (capCheck cap ls) := by
  induction ls with
  | nil => exact neverRaises_ok ()
  | cons l ls ih => exact neverRaises_ite (neverRaises_raise h) ih

theorem neverRaises_askInit (h : .cipherInitFailed ≠ code) (q : Request) : NeverRaises code arg (askInit s q) := by
  rcases askInit_cases s q with ⟨-, he⟩ | ⟨-, he⟩ | ⟨a, -, -, he⟩ <;> rw [he]
  · exact neverRaises_wait q
  · exact neverRaises_raise h
  · exact neverRaises_ok ()

theorem neverRaises_askBytes (h : NeverRaises code arg (raise code' arg' : Cmd Bytes)) (q : Request) :
    NeverRaises code arg (askBytes s q code' arg') := by
  rcases askBytes_cases s q code' arg' with ⟨-, he⟩ | ⟨b, -, he⟩ | ⟨a, -, -, he⟩ <;> rw [he]
  · exact neverRaises_wait q
  · exact neverRaises_ok b
  · exact h

theorem neverRaises_askData (q : Request) : NeverRaises code arg (askData s q) := by
  rcases askData_cases s q with he | ⟨b, -, he⟩ <;> rw [he]
  · exact neverRaises_wait q
  · exact neverRaises_ok b

theorem neverRaises_runBlocks (q : Bytes → Request) (calls : List BlockCall) :
    NeverRaises code arg (runBlocks s q calls) := by
  rcases runBlocks_cases s q calls with ⟨-, he⟩ | ⟨r, -, he⟩ <;> rw [he]
  · exact neverRaises_ok _
  · exact neverRaises_wait r

end

/-! ### No command but DEC.GCM raises AUTHENTICATION_FAILED -/

section
variable {arg : Nat}

theorem ivSizeEquality_no_auth (iv b : Nat) : NeverRaises .authenticationFailed arg (ivSizeEquality iv b) :=
  .bind (neverRaises_check' (by decide)) fun _ => .bind (neverRaises_check' (by decide)) fun _ =>
    neverRaises_check (by decide)

theorem predCheck_no_auth (p : Pred) (a b : Nat) : NeverRaises .authenticationFailed arg (predCheck p a b) := by
  cases p
  case iveq => exact ivSizeEquality_no_auth a b
  case keysize | blocksize | ivsize => exact neverRaises_check' (by decide)
  case ciphertext | stdnonce | noncesize | tagsize | datasize | empty => exact neverRaises_check (by decide)

theorem trailer_no_auth (s : State) (k : Scheme) (ov : Nat) :
    NeverRaises .authenticationFailed arg (trailer s k ov) := by
  cases k
  case iso10126 =>
    exact neverRaises_ite (neverRaises_ok _)
      (.bind (neverRaises_askBytes (neverRaises_raise (by decide)) _) fun _ => neverRaises_ok _)
  all_goals exact neverRaises_ok _

theorem stripOr_no_auth (k : Scheme) (d : Bytes) (b : Nat) :
    NeverRaises .authenticationFailed arg (stripOr k d b) := by
  rcases stripOr_cases k d b with ⟨out, -, he, -⟩ | ⟨-, he⟩ <;> rw [he]
  · exact neverRaises_ok out
  · exact neverRaises_raise (by decide)

theorem padCmd_no_auth (k : Scheme) (s : State) :
    NeverRaises .authenticationFailed arg (padCmd k s) :=
  .bind (neverRaises_check (by decide)) fun _ => .bind (neverRaises_check (by decide)) fun _ =>
    .bind (neverRaises_capCheck (by decide) _ _) fun _ => .bind (trailer_no_auth s k _) fun _ => neverRaises_ok _

theorem unpadCmd_no_auth (k : Scheme) (s : State) :
    NeverRaises .authenticationFailed arg (unpadCmd k s) :=
  .bind (neverRaises_check (by decide)) fun _ => .bind (neverRaises_check (by decide)) fun _ =>
    .bind (neverRaises_check (by decide)) fun _ => .bind (neverRaises_capCheck (by decide) _ _) fun _ =>
      stripOr_no_auth k _ _

theorem modeIvCheck_no_auth (m : BMode) (n : Nat) :
    NeverRaises .authenticationFailed arg (modeIvCheck m n) := by
  cases m
  case ecb => exact neverRaises_ok ()
  all_goals exact ivSizeEquality_no_auth n 16

theorem modeChecked_no_auth {m : BMode} {s : State} {rest : Cmd Bytes}
    (h : NeverRaises .authenticationFailed arg rest) :
    NeverRaises .authenticationFailed arg (modeChecked m s rest) :=
  .bind (neverRaises_check (by decide)) fun _ => .bind (neverRaises_check' (by decide)) fun _ =>
    .bind (modeIvCheck_no_auth m _) fun _ => .bind (neverRaises_askInit (by decide) _) fun _ => h

theorem encAlignCheck_no_auth (m : BMode) (pl : Nat) :
    NeverRaises .authenticationFailed arg (encAlignCheck m pl) := by
  cases m
  case ecb | cbc => exact neverRaises_check (by decide)
  all_goals exact neverRaises_ok ()

theorem decAlignCheck_no_auth (m : BMode) (n : Nat) :
    NeverRaises .authenticationFailed arg (decAlignCheck m n) := by
  cases m
  case ecb | cbc => exact neverRaises_check (by decide)
  all_goals exact neverRaises_ok ()

theorem encInput_no_auth (k : Option Scheme) (s : State) :
    NeverRaises .authenticationFailed arg (encInput k s) := by
  cases k with
  | none => exact neverRaises_ok _
  | some k => exact .bind (trailer_no_auth s k _) fun _ => neverRaises_ok _

theorem decOutput_no_auth (k : Option Scheme) (p : Bytes) :
    NeverRaises .authenticationFailed arg (decOutput k p) := by
  cases k with
  | none => exact neverRaises_ok _
  | some k => exact .bind (neverRaises_check (by decide)) fun _ => stripOr_no_auth k p _

theorem encRest_no_auth (m : BMode) (k : Option Scheme) (s : State) :
    NeverRaises .authenticationFailed arg (encRest m k s) :=
  .bind (encAlignCheck_no_auth m _) fun _ => .bind (neverRaises_capCheck (by decide) _ _) fun _ =>
    .bind (encInput_no_auth k s) fun _ => neverRaises_runBlocks _ _

theorem decRest_no_auth (m : BMode) (k : Option Scheme) (s : State) :
    NeverRaises .authenticationFailed arg (decRest m k s) :=
  .bind (decAlignCheck_no_auth m _) fun _ => .bind (neverRaises_capCheck (by decide) _ _) fun _ =>
    .bind (neverRaises_runBlocks _ _) fun p => decOutput_no_auth k p

theorem nonceCheck_no_auth (v : GVar) (n : Nat) : NeverRaises .authenticationFailed arg (nonceCheck v n) := by
  cases v
  all_goals exact neverRaises_check (by decide)

theorem gcmChecked_no_auth {v : GVar} {s : State} {rest : Cmd Bytes}
    (h : NeverRaises .authenticationFailed arg rest) :
    NeverRaises .authenticationFailed arg (gcmChecked v s rest) :=
  .bind (neverRaises_check (by decide)) fun _ => .bind (neverRaises_check' (by decide)) fun _ =>
    .bind (nonceCheck_no_auth v _) fun _ => .bind (neverRaises_check (by decide)) fun _ =>
      .bind (neverRaises_askInit (by decide) _) fun _ => .bind (neverRaises_askInit (by decide) _) fun _ => h

theorem gcmEncRest_no_auth (v : GVar) (s : State) : NeverRaises .authenticationFailed arg (gcmEncRest v s) :=
  .bind (neverRaises_check (by decide)) fun _ => .bind (neverRaises_capCheck (by decide) _ _) fun _ =>
    neverRaises_askData _

/-- DEC.GCM raises the code with the payload 0 (42_modes.md R189). -/
theorem gcmDecRest_no_auth (v : GVar) (s : State) (h : 0 ≠ arg) :
    NeverRaises .authenticationFailed arg (gcmDecRest v s) :=
  .bind (neverRaises_ite (neverRaises_check (by decide)) (neverRaises_ok ())) fun _ =>
    .bind (neverRaises_capCheck (by decide) _ _) fun _ =>
      .bind (neverRaises_ite (neverRaises_raise_arg h) (neverRaises_ok ())) fun _ =>
        neverRaises_askBytes (neverRaises_raise_arg h) _

/-- AUTHENTICATION_FAILED is raised by DEC.GCM alone, and with the payload 0. -/
theorem decGcm_of_body_eq_raise {c : Command} {s : State} (h : Command.body c s = raise .authenticationFailed arg) :
    (∃ v, c = .decGcm v) ∧ arg = 0 := by
  cases c with
  | pad k => exact absurd h (padCmd_no_auth k s)
  | unpad k => exact absurd h (unpadCmd_no_auth k s)
  | val p => exact absurd h (NeverRaises.bind (predCheck_no_auth p _ _) fun _ => neverRaises_ok [])
  | enc m k => exact absurd h (modeChecked_no_auth (encRest_no_auth m k s))
  | dec m k => exact absurd h (modeChecked_no_auth (decRest_no_auth m k s))
  | encGcm v => exact absurd ((gcmEnc_eq_gcmChecked v s).symm.trans h) (gcmChecked_no_auth (gcmEncRest_no_auth v s))
  | decGcm v =>
    refine ⟨⟨v, rfl⟩, by_contra fun hne => ?_⟩
    exact gcmChecked_no_auth (gcmDecRest_no_auth v s (Ne.symm hne)) ((gcmDec_eq_gcmChecked v s).symm.trans h)

end

end Sys2Proof.Machine
end

section
/-! PROOFS. The obligations of 42_modes.md about GCM, from the lemmas above. -/

namespace Sys2Proof.Proofs

open Sys2Proof.Machine

/-- Settles O52: past the checks the command is its Seal request. -/
theorem gcmEncCompletes : Obligations.GcmEncCompletes := by
  intro v s y hp hr hf hout hask
  refine ⟨?_, by simpa [Request.fits] using ask_fits hask⟩
  rw [exec_encGcm_of_fits hp hr hf hout, askData, hask]
  rfl

/-- Settles O53: past the checks the command is its Open request. -/
theorem gcmDecCompletes : Obligations.GcmDecCompletes := by
  intro v s p hp hr hf ht hask
  have hlen : p.length + gcmTag v s = s.inLen.toNat := by simpa [Request.fits] using ask_fits hask
  refine ⟨?_, by omega⟩
  rw [exec_decGcm_of_tag hp hr hf ht, askBytes, hask]
  rfl

/-- Settles O54: the checks one after the other; both commands share them up to the construction of the AEAD,
and the first lengths. -/
theorem gcmErrors : Obligations.GcmErrors := by
  intro v s i hp hi
  have hcap28 := hp.2
  obtain ⟨rest, hexec⟩ : ∃ rest, exec i s = .next (conclude s (gcmChecked v s rest)) := by
    rcases hi with rfl | rfl
    · exact ⟨_, exec_encGcm v s⟩
    · exact ⟨_, exec_decGcm v s⟩
  refine ⟨fun hn => ?_, fun hn hk => ?_, fun hn hk hiv => ?_, fun hn hk hiv ht => ?_, fun hv hc => ?_,
    fun hv hc => ?_, fun hv hc ha => ?_, fun hv hc ha => ?_, ?_, ?_, fun hr henc hdec hlong => ?_,
    fun hr hin hlong => ?_, fun hr hin hiv hlong => ?_, ?_, ?_, ?_, ?_, ?_⟩
  · rw [hexec, gcmChecked_of_empty hn, conclude_raise]
  · rw [hexec, gcmChecked_of_invalid_key hn hk, conclude_raise]
  · rw [hexec, gcmChecked_of_invalid_nonce hn hk hiv, conclude_raise]
  · rw [hexec, gcmChecked_of_invalid_tag hn hk hiv ht, conclude_raise]
  · rw [hexec, gcmChecked_of_valid hv, askInit_of_none hc, cmd_error_bind, conclude_wait]
  · rw [hexec, gcmChecked_of_valid hv, askInit_of_fail hc, cmd_raise_bind, conclude_raise]
  · rw [hexec, gcmChecked_of_cipher hv hc, askInit_of_none ha, cmd_error_bind, conclude_wait]
  · rw [hexec, gcmChecked_of_cipher hv hc, askInit_of_fail ha, cmd_raise_bind, conclude_raise]
  · rintro hr rfl hlong
    rw [exec_encGcm, gcmChecked_of_ready hr, gcmEncRest, validDataSize_cipherBlock, if_pos hlong,
      cmd_raise_bind, conclude_raise]
  · rintro hr rfl hlong
    rw [exec_decGcm, gcmChecked_of_ready hr, gcmDecRest, gcmDecSizeCheck_eq, if_pos hlong, cmd_raise_bind,
      conclude_raise]
  · exact exec_gcm_of_long hr hi henc hdec (pre := []) rfl (by simp) hlong
  · have hkey := keyLen_le_bufCap hp hr.1.2.1
    exact exec_gcm_of_long hr hi (fun _ => by omega) (fun _ => by omega)
      (pre := [s.inLen.toNat, s.keyLen.toNat]) rfl (by simp [hin, hkey]) hlong
  · have hkey := keyLen_le_bufCap hp hr.1.2.1
    exact exec_gcm_of_long hr hi (fun _ => by omega) (fun _ => by omega)
      (pre := [s.inLen.toNat, s.keyLen.toNat, s.ivLen.toNat]) rfl (by simp [hin, hkey, hiv]) hlong
  · rintro hr hf rfl hlong
    refine ⟨?_, ?_⟩
    · rw [exec_encGcm, gcmChecked_of_ready hr, gcmEncRest_of_fits hp hf,
        capCheck_append_cons _ _ _ [] (gcmLengths_fit hp hr hf) hlong, cmd_raise_bind, conclude_raise]
    · have hin := hf.1
      have htag := hr.1.2.2.2.2
      omega
  · rintro hr hf rfl hout hask
    rw [exec_encGcm_of_fits hp hr hf hout, askData, hask]
    rfl
  · rintro hr hf rfl hshort
    rw [exec_decGcm_of_fits hp hr hf, gcmShortCheck, if_pos hshort, cmd_raise_bind, conclude_raise]
  · rintro hr hf rfl ht hask
    rw [exec_decGcm_of_tag hp hr hf ht, askBytes, hask]
    rfl
  · rintro hr hf rfl ht hask
    rw [exec_decGcm_of_tag hp hr hf ht, askBytes, hask]
    rfl

/-- Settles O60: what Seal and Open answered keeps the collaborators' laws, and DEC.GCM ends as Open
answered. -/
theorem gcmRoundTrip : Obligations.GcmRoundTrip := by
  intro v v' s t u w hinv hanswers hbusy hbusy' henc hidle hok hparams hready' hdec hidle'
  obtain ⟨hready, ⟨-, hsiv, hsaad⟩, hcap, y, hseal, hlen, rfl⟩ := encGcm_success hbusy henc hidle hok
  have hcap28 : s.params.bufCap ≤ 2 ^ 28 := hparams ▸ hinv.params.2
  have hagrees {a : Answer}
      (ha : u.ask (.openData (gcmTag v' u) u.keyBytes u.ivBytes u.inBytes u.aadBytes) = some a) :
      Answered.agrees
        ⟨.sealData (gcmTag v s) s.keyBytes s.ivBytes s.inBytes s.aadBytes, .bytes y⟩
        ⟨.openData (gcmTag v' u) u.keyBytes u.ivBytes u.inBytes u.aadBytes, a⟩ = true ∧ a ≠ .ok := by
    refine ⟨(hinv.lawsKept _ (hanswers _ (mem_answers_of_ask hseal))).2 _
      (hinv.answersKept _ (mem_answers_of_ask ha)), ?_⟩
    rintro rfl
    cases ask_fits ha
  have hfits (hctx : sameContext v s v' u) (hin : u.inBytes.length = y.length) : gcmFits u := by
    obtain ⟨-, hiv, haad, -⟩ := hctx
    rw [gcmFits, ← inBytes_length, ← ivBytes_length, ← aadBytes_length, hin, hiv, haad, ivBytes_length,
      aadBytes_length, hparams]
    exact ⟨hlen ▸ hcap, hsiv, hsaad⟩
  have hfails (hf : gcmFits u) (hopen : ∀ a,
      u.ask (.openData (gcmTag v' u) u.keyBytes u.ivBytes u.inBytes u.aadBytes) = some a → a = .fail) :
      w.err = .authenticationFailed ∧ w.outLen = 0 ∧ w.errarg = 0 ∧ ∀ a, w.byteAt a = u.byteAt a := by
    rw [decGcm_fails hinv.params hready' hf hbusy' hdec hidle' hopen]
    exact ⟨rfl, rfl, rfl, fun _ => rfl⟩
  rw [outBytes_finish s y (by omega)]
  refine ⟨fun hctx hin => ?_, fun hctx hflip => ?_, fun hctx hf hin => ?_⟩
  · have hulen : u.inLen.toNat = s.inLen.toNat + gcmTag v s := by rw [← inBytes_length, hin, hlen]
    have hopened {a : Answer}
        (ha : u.ask (.openData (gcmTag v' u) u.keyBytes u.ivBytes u.inBytes u.aadBytes) = some a) :
        a = .bytes s.inBytes := by
      obtain ⟨hagree, hne⟩ := hagrees ha
      obtain ⟨hkey, hiv, haad, htag⟩ := hctx
      rw [hkey, hiv, haad, htag, hin] at hagree
      exact seal_open hagree hne
    have hf : gcmFits u := hfits hctx (by rw [hin])
    obtain ⟨-, -, -, htag⟩ := hctx
    rcases decGcm_end hinv.params hready' hf hbusy' hdec hidle' with
      ⟨hshort, -⟩ | ⟨a, ha, ⟨rfl, -⟩ | ⟨p, rfl, rfl⟩⟩
    · omega
    · cases hopened ha
    · cases hopened ha
      exact ⟨rfl, outBytes_finish u _ (by rw [inBytes_length]; omega)⟩
  · have hsize : y.length = u.inBytes.length := by
      simp only [oneBitApart, Bool.and_eq_true, beq_iff_eq] at hflip
      exact hflip.1
    refine hfails (hfits hctx hsize.symm) fun a ha => ?_
    obtain ⟨hagree, hne⟩ := hagrees ha
    exact seal_open_flipped hagree hflip hne
  · refine hfails hf fun a ha => ?_
    obtain ⟨hagree, hne⟩ := hagrees ha
    rcases hin with hin | hflip
    · rw [hin] at hagree
      refine seal_open_elsewhere hagree (fun hsame => hctx ?_) hne
      obtain ⟨htag, hkey, hiv, haad⟩ := SealContext.mk.inj hsame
      exact ⟨hkey.symm, hiv.symm, haad.symm, htag.symm⟩
    · exact seal_open_flipped hagree hflip hne

/-- Settles O55: a command that ends with the code has raised it, and a failure shows and stores nothing. -/
theorem authenticationFailureLeaksNothing : Obligations.AuthenticationFailureLeaksNothing := by
  intro i s t hbusy h hidle herr
  rw [exec_eq] at h
  cases h
  rcases body_goodEnd i.command s with ⟨out, hbody, -⟩ | ⟨code, arg, -, hbody⟩ | ⟨q, -, hbody⟩ <;>
    rw [hbody] at hidle herr ⊢
  · cases herr
  · obtain rfl : code = .authenticationFailed := herr
    obtain ⟨⟨v, hv⟩, rfl⟩ := decGcm_of_body_eq_raise hbody
    exact ⟨⟨v, by rw [← hv, instr_command]⟩, rfl, rfl, fun _ => rfl, fun _ => rfl⟩
  · rw [conclude_wait, waitFor_busy, hbusy] at hidle
    cases hidle

end Sys2Proof.Proofs
end

section
/-! PROOFS. What a step can do to the status and the results: it completes a command, it is a reset, or it
leaves them as they are (10_state.md R24, R37; 60_exceptions.md R242, R243, R247, R248). -/

namespace Sys2Proof.Machine

/-! ### The two ends of a command -/

/-- The move in which a running command completes (10_state.md R40). -/
structure Completes (s t : State) : Prop where
  sequencer : ∃ ts, s.sequencerNext ts
  busy      : s.busy = true
  idle      : t.busy = false
  done      : t.done = true

/-- A command that has left Busy has finished with an output that fits, or failed with a code other than OK. -/
theorem exec_end {i : Instr} {s t : State} (hbusy : s.busy = true) (h : exec i s = .next t)
    (hidle : t.busy = false) :
    (∃ out, out.length ≤ s.params.bufCap ∧ t = finish s out) ∨
      ∃ code arg, code ≠ .ok ∧ t = raiseErr s code arg := by
  rcases exec_cases i s with ⟨out, hl, hx⟩ | ⟨code, arg, hc, hx⟩ | ⟨q, -, hx⟩ <;> cases hx.symm.trans h
  · exact .inl ⟨out, hl, rfl⟩
  · exact .inr ⟨code, arg, hc, rfl⟩
  · rw [waitFor_busy, hbusy] at hidle
    cases hidle

/-- A failure recorded in the registers is the failure raised, its payload modulo 2^64. -/
theorem raiseErr_errarg_toNat (s : State) (code : Code) (arg : Nat) :
    raiseErr s code ((raiseErr s code arg).errarg.toNat) = raiseErr s code arg := by
  simp only [raiseErr, BitVec.ofNat_toNat, BitVec.setWidth_eq]

/-! ### What leaves the results alone -/

/-- The results read as they did, a running command runs on, and DONE has not risen. -/
structure ResultsKept (s t : State) : Prop where
  err     : t.err = s.err
  errarg  : t.errarg = s.errarg
  outLen  : t.outLen = s.outLen
  outByte : ∀ k, t.outByte k = s.outByte k
  busy    : s.busy = true → t.busy = true
  done    : t.done = true → s.done = true

theorem resultsKept_refl (s : State) : ResultsKept s s :=
  ⟨rfl, rfl, rfl, fun _ => rfl, id, id⟩

/-- What OUTBUF reads as depends on OUT_LEN and the bytes of OUTBUF. -/
theorem outByte_congr {s t : State} (hl : t.outLen = s.outLen)
    (hb : ∀ a, Buf.base .output ≤ a → t.byteAt a = s.byteAt a) (k : Nat) : t.outByte k = s.outByte k := by
  rw [State.outByte, State.outByte, hl, hb _ (Nat.le_add_right _ k)]

theorem resultsKept_waitFor (s : State) (q : Request) : ResultsKept s (waitFor s q) := by
  rw [waitFor_frame]
  exact { resultsKept_refl s with }

theorem resultsKept_answerArrives {s t : State} {k : Nat} {a : Answer} (h : answerArrives s k a = .next t) :
    ResultsKept s t := by
  rcases answerArrives_next h with rfl | ⟨o, -, -, -, rfl⟩
  · exact resultsKept_refl _
  · exact { resultsKept_refl s with }

/-- The register writes that touch the status are those of CMD and STATUS: the one starts a command, both only
clear DONE. -/
theorem resultsKept_writeReg (s : State) (v : Word) (r : Reg) : ResultsKept s (writeReg s v r) := by
  cases r
  case cmd => exact { resultsKept_refl s with busy := fun _ => rfl, done := nofun }
  case status => exact { resultsKept_refl s with done := fun h => (Bool.and_eq_true_iff.mp h).1 }
  all_goals exact { resultsKept_refl s with }

/-- OUTBUF lies above the buffers a host writes (20_memory.md R51). -/
theorem not_hostWritable_output (s : State) {a : Nat} (h : Buf.base .output ≤ a) : ¬ s.hostWritable a := by
  rintro ⟨-, -, hregion⟩
  simp only [regionOf, Buf.base, Buf.region] at hregion h
  omega

theorem resultsKept_writeWindow (s : State) (v : Word) (off n : Nat) : ResultsKept s (writeWindow s v off n) := by
  have hbytes (a : Nat) (ha : Buf.base .output ≤ a) : (writeWindow s v off n).byteAt a = s.byteAt a := by
    rw [byteAt_writeWindow, if_neg fun h => not_hostWritable_output s ha h.2]
  obtain ⟨m, hm⟩ := writeWindow_eq s v off n
  rw [hm] at hbytes ⊢
  exact { resultsKept_refl s with outByte := outByte_congr rfl hbytes }

theorem resultsKept_writeIdle (s : State) (v : Word) (off : Nat) (w : Width) :
    ResultsKept s (writeIdle s v off w) := by
  unfold writeIdle
  split
  · split
    · exact resultsKept_writeReg s v _
    · exact resultsKept_refl s
  · exact resultsKept_writeWindow s v off _

theorem resultsKept_busAccess {a : Access} {s t : State} (h : busAccess a s = .next t) : ResultsKept s t := by
  rcases busAccess_next h with rfl | ⟨off, -, -, -, rfl⟩ | ⟨off, v, -, -, -, rfl⟩ | rfl
  · exact resultsKept_refl _
  · exact { resultsKept_refl s with }
  · unfold busWrite
    split
    · exact { resultsKept_refl s with }
    · exact { resultsKept_writeIdle s v off a.width with }
  · exact { resultsKept_refl s with }

/-- A step completes a command, or is a reset, or leaves the results, a running command and a clear DONE as
they are. -/
theorem step_results {s t : State} (h : step s = .next t) :
    Completes s t ∨ (∃ ts, s.turns = .reset :: ts) ∨ ResultsKept s t := by
  rcases step_next h with ⟨ts, hturn, hs⟩ | ⟨a, ts, -, hs⟩ | ⟨k, a, ts, -, hs⟩ | ⟨ts, hturn, -⟩
  · have hseq : ∃ ts, s.sequencerNext ts := ⟨ts, hturn.symm⟩
    rcases sequencerStep_next hs with ⟨-, rfl⟩ | ⟨hb, out, -, rfl⟩ | ⟨hb, code, arg, -, rfl⟩ | ⟨-, q, -, rfl⟩
    · exact .inr (.inr { resultsKept_refl s with })
    · exact .inl ⟨hseq, hb, rfl, rfl⟩
    · exact .inl ⟨hseq, hb, rfl, rfl⟩
    · exact .inr (.inr { resultsKept_waitFor { s with turns := ts } q with })
  · exact .inr (.inr { resultsKept_busAccess hs with })
  · exact .inr (.inr { resultsKept_answerArrives hs with })
  · exact .inr (.inl ⟨ts, hturn⟩)

/-! ### What sets IE -/

/-- A write while Idle leaves IE alone, or it is a write of CTRL. -/
theorem writeIdle_ie (s : State) (v : Word) (off : Nat) (w : Width) :
    (writeIdle s v off w).ie = s.ie ∨ off = 0x008 ∧ (writeIdle s v off w).ie = v.getLsbD 0 := by
  unfold writeIdle
  split
  case isTrue hregion =>
    have hoff : off < 2 ^ 28 := by simp only [regionOf] at hregion; omega
    rw [withinRegion_lt hoff]
    split
    case h_1 r hr =>
      cases r
      case ctrl => exact .inr ⟨offset_of_regAt hr, rfl⟩
      all_goals exact .inl rfl
    case h_2 => exact .inl rfl
  case isFalse =>
    obtain ⟨m, hm⟩ := writeWindow_eq s v off w.bytes
    rw [hm]
    exact .inl rfl

/-- IE is set by a host's write of CTRL while Idle, and by nothing else (10_state.md R25). -/
theorem step_sets_ie {s t : State} (h : step s = .next t) (hclear : s.ie = false) (hset : t.ie = true) :
    s.busy = false ∧ ∃ v ts, s.hostNext 0x008 .word (.write v) ts ∧ v.getLsbD 0 = true := by
  obtain ⟨-, hkept | ⟨hidle, off, w, v, ts, hnext⟩ | ⟨ts, hturn⟩⟩ := step_inputs h
  · cases hset.symm.trans (hkept.ie.trans hclear)
  · by_cases hl : legalAccess off w
    · rw [step_write_idle hidle hnext hl] at h
      cases h
      rcases writeIdle_ie { s with turns := ts } v off w with hie | ⟨rfl, hv⟩
      · cases hset.symm.trans (hie.trans hclear)
      · obtain ⟨rfl, -⟩ | ⟨hoff, -⟩ := hl
        · exact ⟨hidle, v, ts, hnext, hv.symm.trans hset⟩
        · omega
    · rw [step_illegalAccess hnext hl, busError] at h
      split at h
      · cases h
        cases hset.symm.trans hclear
      · cases h
  · rw [step_reset hturn] at h
    cases h
    cases hset

end Sys2Proof.Machine
end

section
/-! PROOFS. What an answer may be by itself, and what an earlier answer makes of it, law by law
(42_modes.md R201, R205, R208, R209; 60_exceptions.md R251). -/

namespace Sys2Proof.Machine

/-! ### The kinds and lengths of answers (60_exceptions.md R251) -/

theorem fits_cipherInit (key : Bytes) (a : Answer) :
    (Request.cipherInit key).fits a = true ↔ a = .ok ∨ a = .fail := by
  cases a <;> simp [Request.fits]

theorem fits_encryptBlock (key x : Bytes) (a : Answer) :
    (Request.encryptBlock key x).fits a = true ↔ ∃ y, a = .bytes y ∧ y.length = 16 := by
  cases a <;> simp [Request.fits, Config.cipherBlock]

theorem fits_decryptBlock (key x : Bytes) (a : Answer) :
    (Request.decryptBlock key x).fits a = true ↔ ∃ y, a = .bytes y ∧ y.length = 16 := by
  cases a <;> simp [Request.fits, Config.cipherBlock]

theorem fits_aeadInit (n t : Nat) (a : Answer) :
    (Request.aeadInit n t).fits a = true ↔ a = .ok ∨ a = .fail := by
  cases a <;> simp [Request.fits]

theorem fits_sealData (t : Nat) (key nonce p aad : Bytes) (a : Answer) :
    (Request.sealData t key nonce p aad).fits a = true ↔ ∃ y, a = .bytes y ∧ y.length = p.length + t := by
  cases a <;> simp [Request.fits]

theorem fits_openData (t : Nat) (key nonce c aad : Bytes) (a : Answer) :
    (Request.openData t key nonce c aad).fits a = true ↔
      a = .fail ∨ ∃ y, a = .bytes y ∧ y.length + t = c.length := by
  cases a <;> simp [Request.fits]

theorem fits_rngFill (n : Nat) (a : Answer) :
    (Request.rngFill n).fits a = true ↔ a = .fail ∨ ∃ y, a = .bytes y ∧ y.length = n := by
  cases a <;> simp [Request.fits]

theorem ne_ok_of_fits_openData {t : Nat} {key nonce c aad : Bytes} {a : Answer}
    (h : (Request.openData t key nonce c aad).fits a = true) : a ≠ .ok := by
  rintro rfl
  cases h

/-! ### What earlier answers say -/

theorem fits_of_lawfulAnswer {l : List Answered} {q : Request} {a : Answer} (h : lawfulAnswer l q a = true) :
    q.fits a = true :=
  ((lawfulAnswer_iff l q a).mp h).1

theorem agrees_of_lawfulAnswer {l : List Answered} {x : Answered} {q : Request} {a : Answer}
    (h : lawfulAnswer l q a = true) (hx : x ∈ l) : x.agrees ⟨q, a⟩ = true :=
  ((lawfulAnswer_iff l q a).mp h).2 x hx

/-- The request is to neither the block cipher nor Seal nor Open. -/
def Request.lawless : Request → Bool
  | .cipherInit _ | .aeadInit _ _ | .rngFill _ => true
  | .encryptBlock _ _ | .decryptBlock _ _ | .sealData _ _ _ _ _ | .openData _ _ _ _ _ => false

/-- A construction and the randomness source are under no law that relates answers. -/
theorem lawfulAnswer_of_lawless {q : Request} (hq : q.lawless = true) (l : List Answered) (a : Answer) :
    lawfulAnswer l q a = q.fits a := by
  have hagrees (x : Answered) : x.agrees ⟨q, a⟩ = true := by
    obtain ⟨hb, hs, ho⟩ : (⟨q, a⟩ : Answered).blockPair = none ∧ (⟨q, a⟩ : Answered).sealing = none ∧
        (⟨q, a⟩ : Answered).opening = none := by
      cases q
      case cipherInit | aeadInit | rngFill => exact ⟨rfl, rfl, rfl⟩
      all_goals cases hq
    simp [Answered.agrees, blockLaw, sealLaw, openLaw, hb, hs, ho]
  simp [lawfulAnswer, hagrees]

/-- Under one key, two blocks go with the same block exactly when they are the same (42_modes.md R209). -/
theorem blockPair_iff {l : List Answered} {x : Answered} {q : Request} {a : Answer} {k p c p' c' : Bytes}
    (hl : lawfulAnswer l q a = true) (hx : x ∈ l) (hpair : x.blockPair = some (k, p, c))
    (hpair' : (⟨q, a⟩ : Answered).blockPair = some (k, p', c')) : p = p' ↔ c = c' := by
  have hlaw := agrees_of_lawfulAnswer hl hx
  simp only [Answered.agrees, Bool.and_eq_true] at hlaw
  obtain ⟨⟨⟨hblock, -⟩, -⟩, -⟩ := hlaw
  simpa [blockLaw, hpair, hpair'] using hblock

/-- Seal gives what it gave, for the same arguments (42_modes.md R208, law 1). -/
theorem seal_same {t : Nat} {k n p a c c' : Bytes}
    (h : Answered.agrees ⟨.sealData t k n p a, .bytes c⟩ ⟨.sealData t k n p a, .bytes c'⟩ = true) : c = c' := by
  simp only [Answered.agrees, Bool.and_eq_true] at h
  obtain ⟨⟨⟨-, hseal⟩, -⟩, -⟩ := h
  simp only [sealLaw, Answered.sealing, BEq.rfl, Bool.and_true, Bool.and_eq_true, Bool.true_beq, beq_iff_eq] at hseal
  exact hseal.1

section
variable {l : List Answered} {t : Nat} {key nonce p aad c c' : Bytes} {r : Answer}

/-- What an earlier Seal answer binds a later Open answer to: the plaintext in its own context, and failure in
another or with one bit flipped (42_modes.md R201, R205, R208). -/
theorem open_after_seal (hmem : ⟨.sealData t key nonce p aad, .bytes c⟩ ∈ l) :
    (lawfulAnswer l (.openData t key nonce c aad) r = true → r = .bytes p) ∧
      ∀ (t' : Nat) (key' nonce' aad' : Bytes),
        (t' ≠ t ∨ key' ≠ key ∨ nonce' ≠ nonce ∨ aad' ≠ aad →
          lawfulAnswer l (.openData t' key' nonce' c aad') r = true → r = .fail) ∧
        (oneBitApart c c' = true → lawfulAnswer l (.openData t' key' nonce' c' aad') r = true → r = .fail) := by
  refine ⟨fun hl => ?_, fun t' key' nonce' aad' => ⟨fun hctx hl => ?_, fun hflip hl => ?_⟩⟩
  · exact seal_open (agrees_of_lawfulAnswer hl hmem) (ne_ok_of_fits_openData (fits_of_lawfulAnswer hl))
  · refine seal_open_elsewhere (agrees_of_lawfulAnswer hl hmem) (fun hsame => ?_)
      (ne_ok_of_fits_openData (fits_of_lawfulAnswer hl))
    obtain ⟨rfl, rfl, rfl, rfl⟩ := SealContext.mk.inj hsame
    simp at hctx
  · exact seal_open_flipped (agrees_of_lawfulAnswer hl hmem) hflip
      (ne_ok_of_fits_openData (fits_of_lawfulAnswer hl))

/-- What an earlier Seal answer binds a later one to: the same bytes for the same arguments, and for those
alone. -/
theorem seal_after_seal (hmem : ⟨.sealData t key nonce p aad, .bytes c⟩ ∈ l) :
    (lawfulAnswer l (.sealData t key nonce p aad) (.bytes c') = true → c' = c) ∧
      ∀ (t' : Nat) (key' nonce' p' aad' : Bytes),
        lawfulAnswer l (.sealData t' key' nonce' p' aad') (.bytes c) = true →
          t' = t ∧ key' = key ∧ nonce' = nonce ∧ aad' = aad ∧ p' = p := by
  refine ⟨fun hl => (seal_same (agrees_of_lawfulAnswer hl hmem)).symm, fun t' key' nonce' p' aad' hl => ?_⟩
  obtain ⟨hctx, rfl⟩ := seal_seal (agrees_of_lawfulAnswer hl hmem)
  obtain ⟨rfl, rfl, rfl, rfl⟩ := SealContext.mk.inj hctx
  exact ⟨rfl, rfl, rfl, rfl, rfl⟩

/-- What an earlier opening binds a later Seal answer to: the bytes opened are sealed from that plaintext in
that context alone, and no Seal answer is one bit away from them (42_modes.md R201, R205, R208). -/
theorem seal_after_open (hmem : ⟨.openData t key nonce c aad, .bytes p⟩ ∈ l) (t' : Nat)
    (key' nonce' p' aad' : Bytes) :
    (lawfulAnswer l (.sealData t' key' nonce' p' aad') (.bytes c) = true →
        t' = t ∧ key' = key ∧ nonce' = nonce ∧ aad' = aad ∧ p' = p) ∧
      (oneBitApart c' c = true → lawfulAnswer l (.sealData t' key' nonce' p' aad') (.bytes c') = false) := by
  refine ⟨fun hl => ?_, fun hflip => Bool.eq_false_iff.mpr fun hl => ?_⟩
  · have hagree := (agrees_comm _ _).trans (agrees_of_lawfulAnswer hl hmem)
    by_cases hctx : SealContext.mk t' key' nonce' aad' = SealContext.mk t key nonce aad
    · obtain ⟨rfl, rfl, rfl, rfl⟩ := SealContext.mk.inj hctx
      cases seal_open hagree nofun
      exact ⟨rfl, rfl, rfl, rfl, rfl⟩
    · cases seal_open_elsewhere hagree hctx nofun
  · have hagree := (agrees_comm _ _).trans (agrees_of_lawfulAnswer hl hmem)
    cases seal_open_flipped hagree hflip nofun

end

/-! ### The arrival of an answer (60_exceptions.md R251, 70_reset_and_hazards.md R271) -/

/-- The arrival of a lawful answer to the outstanding request. -/
theorem answerArrives_lawful {s : State} {o : Outstanding} {a : Answer} (hp : s.pending = some o)
    (hl : lawfulAnswer s.transcript o.request a = true) :
    answerArrives s o.ticket a = .next
      { s with
        pending    := none
        answers    := s.answers ++ [⟨o.request, a⟩]
        transcript := s.transcript ++ [⟨o.request, a⟩] } := by
  simp [answerArrives, hp, hl]

theorem answerArrives_unlawful {s : State} {o : Outstanding} {a : Answer} (hp : s.pending = some o)
    (hl : lawfulAnswer s.transcript o.request a = false) :
    answerArrives s o.ticket a = .refused .collaboratorBrokeLaw := by
  simp [answerArrives, hp, hl]

/-- An answer for another number changes nothing. -/
theorem answerArrives_ignored {s : State} {k : Nat} {a : Answer} (h : ∀ o, s.pending = some o → o.ticket ≠ k) :
    answerArrives s k a = .next s := by
  cases hp : s.pending with
  | none => simp [answerArrives, hp]
  | some o => simp [answerArrives, hp, h o hp]

/-- A further answer is the command's answer to its request, and to no other. -/
theorem ask_append {s t : State} {q : Request} {a : Answer} (ht : t.answers = s.answers ++ [⟨q, a⟩])
    (hfits : q.fits a = true) (hask : s.ask q = none) :
    t.ask q = some a ∧ ∀ q', q' ≠ q → t.ask q' = s.ask q' := by
  have happend (q' : Request) : t.ask q' = (s.ask q').or (if q = q' then some a else none) := by
    rw [State.ask, State.ask, ht, findAnswer_append _ _ _ _ hfits]
    cases findAnswer s.answers q' <;> rfl
  exact ⟨by simp [happend, hask], fun q' hne => by simp [happend, hne.symm]⟩

theorem writeReg_transcript (s : State) (v : Word) (r : Reg) : (writeReg s v r).transcript = s.transcript := by
  cases r <;> rfl

theorem writeIdle_transcript (s : State) (v : Word) (off : Nat) (w : Width) :
    (writeIdle s v off w).transcript = s.transcript := by
  unfold writeIdle
  split
  · split
    · exact writeReg_transcript s v _
    · rfl
  · obtain ⟨m, hm⟩ := writeWindow_eq s v off w.bytes
    rw [hm]

/-- A host's access does not touch the transcript. -/
theorem busAccess_transcript {a : Access} {s t : State} (h : busAccess a s = .next t) :
    t.transcript = s.transcript := by
  rcases busAccess_next h with rfl | ⟨off, -, -, -, rfl⟩ | ⟨off, v, -, -, -, rfl⟩ | rfl
  · rfl
  · rfl
  · unfold busWrite
    split
    · rfl
    · exact writeIdle_transcript s v off a.width
  · rfl

/-- Nothing but the arrival of an answer to the outstanding request touches the transcript (log 18). -/
theorem step_transcript {s t : State} (h : step s = .next t) : t.transcript = s.transcript ∨
    ∃ o a ts, s.pending = some o ∧ s.turns = .collaborator o.ticket a :: ts ∧
      t.transcript = s.transcript ++ [⟨o.request, a⟩] := by
  rcases step_next h with ⟨ts, -, hs⟩ | ⟨a, ts, -, hs⟩ | ⟨k, a, ts, hturn, hs⟩ | ⟨ts, -, rfl⟩
  · left
    rcases sequencerStep_next hs with ⟨-, rfl⟩ | ⟨-, out, -, rfl⟩ | ⟨-, code, arg, -, rfl⟩ | ⟨-, q, -, rfl⟩
    · rfl
    · rfl
    · rfl
    · rw [waitFor_frame]
  · left
    exact (busAccess_transcript hs).trans rfl
  · rcases answerArrives_next hs with rfl | ⟨o, hp, rfl, -, rfl⟩
    · exact .inl rfl
    · exact .inr ⟨o, a, ts, hp, hturn, rfl⟩
  · exact .inl rfl

end Sys2Proof.Machine
end

section
/-! PROOFS. What a command waits for: every request it makes has its arguments in the ranges of the ports
(60_exceptions.md R251). -/

namespace Sys2Proof.Machine

/-- Where the pseudocode waits, it waits for a request with its arguments in their ranges. -/
def WaitsLegally {α : Type} (c : Cmd α) : Prop := ∀ q, c = .error (.wait q) → q.legal

/-! ### Sequencing, checks and requests -/

theorem waitsLegally_ok {α : Type} (a : α) : WaitsLegally (.ok a) := nofun

theorem waitsLegally_raise {α : Type} (code : Code) (arg : Nat) : WaitsLegally (raise code arg : Cmd α) := nofun

theorem waitsLegally_wait {α : Type} {q : Request} (h : q.legal) : WaitsLegally (.error (.wait q) : Cmd α) := by
  rintro _ ⟨⟩
  exact h

theorem WaitsLegally.bind {α β : Type} {c : Cmd α} {f : α → Cmd β} (hc : WaitsLegally c)
    (hf : ∀ a, c = .ok a → WaitsLegally (f a)) : WaitsLegally (c >>= f) := by
  intro q heq
  rcases cmd_bind_eq_error.mp heq with h | ⟨a, ha, h⟩
  · exact hc q h
  · exact hf a ha q h

/-- A check in front waits for nothing. -/
theorem WaitsLegally.check {x : Cmd Unit} {c : Cmd Bytes} (hx : IsCheck x) (h : x = .ok () → WaitsLegally c) :
    WaitsLegally (x >>= fun _ => c) := by
  rcases hx with rfl | ⟨code, arg, -, rfl⟩
  · exact h rfl
  · exact waitsLegally_raise code arg

theorem WaitsLegally.init {s : State} {q : Request} {c : Cmd Bytes} (hq : q.legal) (h : WaitsLegally c) :
    WaitsLegally (askInit s q >>= fun _ => c) := by
  rcases askInit_cases s q with ⟨-, he⟩ | ⟨-, he⟩ | ⟨a, -, -, he⟩ <;> rw [he]
  · exact waitsLegally_wait hq
  · exact waitsLegally_raise _ _
  · exact h

theorem waitsLegally_askBytes {s : State} {q : Request} (hq : q.legal) (code : Code) (arg : Nat) :
    WaitsLegally (askBytes s q code arg) := by
  rcases askBytes_cases s q code arg with ⟨-, he⟩ | ⟨b, -, he⟩ | ⟨a, -, -, he⟩ <;> rw [he]
  · exact waitsLegally_wait hq
  · exact waitsLegally_ok b
  · exact waitsLegally_raise code arg

theorem waitsLegally_askData {s : State} {q : Request} (hq : q.legal) : WaitsLegally (askData s q) := by
  rcases askData_cases s q with he | ⟨b, -, he⟩ <;> rw [he]
  · exact waitsLegally_wait hq
  · exact waitsLegally_ok b

theorem waitsLegally_stripOr (k : Scheme) (d : Bytes) (b : Nat) : WaitsLegally (stripOr k d b) := by
  rcases stripOr_cases k d b with ⟨out, -, he, -⟩ | ⟨-, he⟩ <;> rw [he]
  · exact waitsLegally_ok out
  · exact waitsLegally_raise _ _

/-! ### PAD, UNPAD and VAL -/

/-- A filler is at least one byte, and one less than an overhead of at most 255 (40_padding.md R102). -/
theorem waitsLegally_trailer (s : State) (k : Scheme) {ov : Nat} (h1 : 1 ≤ ov) (hle : ov ≤ 255) :
    WaitsLegally (trailer s k ov) := by
  rcases trailer_cases s k ov h1 with ⟨t, he, -⟩ | ⟨-, hne, he | he⟩ <;> rw [he]
  · exact waitsLegally_ok t
  · refine waitsLegally_wait (?_ : 1 ≤ ov - 1 ∧ ov - 1 ≤ 254)
    omega
  · exact waitsLegally_raise _ _

theorem padBlockCheck_eq_ok (b : Nat) : padBlockCheck b = .ok () ↔ b ≠ 0 := by
  unfold padBlockCheck raise
  split <;> simp [*]

theorem padCmd_waitsLegally (k : Scheme) (s : State) : WaitsLegally (padCmd k s) := by
  rw [padCmd, padB_blksz]
  refine .check (padEmptyCheck_isCheck _) fun _ => .check (padBlockCheck_isCheck _) fun hb =>
    .check (capCheck_isCheck _ _) fun _ => ?_
  obtain ⟨h1, hle⟩ := padOvh_bounds ((padBlockCheck_eq_ok _).mp hb)
  exact .bind (waitsLegally_trailer s k h1 (hle.trans (padSize_le k s))) fun t _ => waitsLegally_ok _

theorem unpadCmd_waitsLegally (k : Scheme) (s : State) : WaitsLegally (unpadCmd k s) :=
  .check (padEmptyCheck_isCheck _) fun _ => .check (padBlockCheck_isCheck _) fun _ =>
    .check (unpadAlignCheck_isCheck _ _) fun _ => .check (capCheck_isCheck _ _) fun _ =>
      waitsLegally_stripOr k _ _

theorem valCmd_waitsLegally {x : Cmd Unit} (h : IsCheck x) : WaitsLegally (valCmd x) :=
  .check h fun _ => waitsLegally_ok []

/-! ### The block requests of ENC and DEC

The requests up to the first that is unanswered are those of a cipher that gives 16-byte blocks, so its input
is a block too. -/

/-- A transform that waits, waits at a call before which all calls were answered. -/
theorem runBlocks_waits_at_first {s : State} {q : Bytes → Request} {calls : List BlockCall} {r : Request}
    (h : runBlocks s q calls = .error (.wait r)) :
    ∃ pre x post, calls = pre ++ x :: post ∧ (∀ y ∈ pre, ∃ a, s.ask (q y.input) = some a) ∧ r = q x.input := by
  induction calls with
  | nil => cases h
  | cons x calls ih =>
    rcases hask : s.ask (q x.input) with _ | a
    · refine ⟨[], x, calls, rfl, nofun, ?_⟩
      simp only [runBlocks, List.map_cons, askAll, hask, cmd_error_bind] at h
      cases h
      rfl
    · have htail : runBlocks s q calls = .error (.wait r) := by
        simp only [runBlocks, List.map_cons, askAll, hask] at h ⊢
        rcases cmd_bind_eq_error.mp h with h | ⟨u, -, h⟩
        · rw [h]; rfl
        · cases h
      obtain ⟨pre, x', post, rfl, hpre, hr⟩ := ih htail
      exact ⟨x :: pre, x', post, rfl, List.forall_mem_cons.mpr ⟨⟨a, hask⟩, hpre⟩, hr⟩

/-- The answers had so far, made a function that gives a block for every input. -/
def State.blockFn (s : State) (q : Bytes → Request) (x : Bytes) : Bytes :=
  if s.ask (q x) = none then List.replicate 16 0 else s.cipherFn q x

theorem blockFn_of_ask {s : State} {q : Bytes → Request} {x : Bytes} {a : Answer} (h : s.ask (q x) = some a) :
    s.blockFn q x = s.cipherFn q x := by
  rw [State.blockFn, if_neg (by simp [h])]

theorem blockFn_length {s : State} {q : Bytes → Request}
    (hq : ∀ x a, s.ask (q x) = some a → ∃ y, a = .bytes y ∧ y.length = 16) (x : Bytes) :
    (s.blockFn q x).length = 16 := by
  rcases hask : s.ask (q x) with _ | a
  · simp [State.blockFn, hask]
  · obtain ⟨y, rfl, hy⟩ := hq x a hask
    rw [blockFn_of_ask hask, cipherFn_of_ask hask, hy]

/-- A rule whose cipher inputs are blocks: it makes one of what it is handed, and of a full block and its
answer hands on what it can use. ECB is handed nothing that it uses; ECB and CBC take full blocks only. -/
structure Chain.AsksBlocks (c : Chain) (m : BMode) : Prop where
  input : ∀ prev b, (m ≠ .ecb → prev.length = 16) → (m = .ecb ∨ m = .cbc → b.length = 16) →
    (c.input prev b).length = 16
  next  : ∀ prev b y, prev.length = 16 → b.length = 16 → y.length = 16 → (c.next prev b y).length = 16

theorem keystreamXor_length (prev : Bytes) {b y : Bytes} (hb : b.length = 16) (hy : y.length = 16) :
    (keystreamXor prev b y).length = 16 := by
  simp [keystreamXor, hb, hy]

theorem encChain_asksBlocks (m : BMode) : (encChain m).AsksBlocks m := by
  cases m
  case ecb => exact ⟨fun prev b _ hb => hb (.inl rfl), fun prev b y hprev _ _ => hprev⟩
  case cbc =>
    refine ⟨fun prev b hprev hb => ?_, fun prev b y _ _ hy => hy⟩
    exact (xorBytes_length b prev).trans (by rw [hb (.inr rfl), hprev nofun, Nat.min_self])
  case cfb => exact ⟨fun prev b hprev _ => hprev nofun, fun prev b y _ hb hy => keystreamXor_length prev hb hy⟩
  case ofb => exact ⟨fun prev b hprev _ => hprev nofun, fun prev b y _ _ hy => hy⟩
  case ctr => exact ⟨fun prev b hprev _ => hprev nofun, fun prev b y _ _ _ => nextCounter_length prev⟩

theorem decChain_asksBlocks (m : BMode) : (decChain m).AsksBlocks m := by
  cases m
  case cbc => exact ⟨fun prev b _ hb => hb (.inr rfl), fun prev b y _ hb _ => hb⟩
  case cfb => exact ⟨fun prev b hprev _ => hprev nofun, fun prev b y _ hb _ => hb⟩
  case ecb => exact encChain_asksBlocks .ecb
  case ofb => exact encChain_asksBlocks .ofb
  case ctr => exact encChain_asksBlocks .ctr

/-- Every input of such a transform is a block, where all its blocks but the last are full and the cipher gives
blocks. What the last block hands on does not matter. -/
theorem Chain.AsksBlocks.inputs_length {c : Chain} {m : BMode} {f : Bytes → Bytes} {prev : Bytes} {bs : List Bytes}
    (hc : c.AsksBlocks m) (hf : ∀ x, (f x).length = 16) (hprev : m ≠ .ecb → prev.length = 16)
    (hfull : m = .ecb ∨ m = .cbc → ∀ b ∈ bs, b.length = 16)
    (hinit : ∀ j, j + 1 < bs.length → (bs.getD j []).length = 16) :
    ∀ x ∈ c.calls f prev bs, x.input.length = 16 := by
  induction bs generalizing prev with
  | nil => nofun
  | cons b bs ih =>
    refine List.forall_mem_cons.mpr ⟨hc.input prev b hprev fun hm => hfull hm b (by simp), ?_⟩
    cases bs with
    | nil => nofun
    | cons b' bs =>
      have hb : b.length = 16 := hinit 0 (by simp)
      refine ih (fun hm => hc.next prev b _ (hprev hm) hb (hf _))
        (fun hm y hy => hfull hm y (List.mem_cons_of_mem b hy)) fun j hj => ?_
      exact hinit (j + 1) (Nat.succ_lt_succ hj)

/-- All blocks but the last are full (42_modes.md R181). -/
theorem blocks_getD_length {p : Bytes} {j : Nat} (h : j + 1 < (blocks p).length) :
    ((blocks p).getD j []).length = 16 := by
  rw [blocks_getD (Nat.lt_of_succ_lt h), List.length_take, List.length_drop]
  rw [blocks_length] at h
  omega

/-- A transform that waits, waits for the cipher's answer to a block. -/
theorem runBlocks_waitsLegally {c : Chain} {m : BMode} {s : State} {q : Bytes → Request} {iv p : Bytes}
    (hc : c.AsksBlocks m) (hq : ∀ x a, s.ask (q x) = some a → ∃ y, a = .bytes y ∧ y.length = 16)
    (hlegal : ∀ x, x.length = 16 → (q x).legal) (hiv : m ≠ .ecb → iv.length = 16)
    (halign : m = .ecb ∨ m = .cbc → p.length % 16 = 0) :
    WaitsLegally (runBlocks s q (c.calls (s.cipherFn q) iv (blocks p))) := by
  intro r h
  obtain ⟨pre, x, post, hsplit, hpre, rfl⟩ := runBlocks_waits_at_first h
  have hagree : ∀ y ∈ pre, s.blockFn q y.input = s.cipherFn q y.input := fun y hy =>
    (hpre y hy).elim fun _ ha => blockFn_of_ask ha
  obtain ⟨x', post', hsplit', hinput⟩ := Chain.calls_agree_up_to hsplit hagree
  have hmem : x' ∈ c.calls (s.blockFn q) iv (blocks p) := by simp [hsplit']
  rw [← hinput]
  exact hlegal _ (hc.inputs_length (blockFn_length hq) hiv (fun hm b => blocks_full (halign hm))
    (fun j => blocks_getD_length) x' hmem)

/-! ### ENC and DEC -/

/-- The operands of ENC and DEC past their size checks are in the ranges of the cipher port. -/
theorem modeValid_ranges {m : BMode} {s : State} (h : modeValid m s) :
    isAesSize s.keyBytes.length ∧ (m ≠ .ecb → s.ivBytes.length = 16) := by
  obtain ⟨-, hk, hiv⟩ := h
  rw [keyBytes_length, ivBytes_length]
  exact ⟨hk, hiv.resolve_left⟩

theorem modeChecked_waitsLegally {m : BMode} {s : State} {rest : Cmd Bytes}
    (h : modeValid m s → WaitsLegally rest) : WaitsLegally (modeChecked m s rest) := by
  refine .check (emptyData_isCheck _) fun hn => .check (validKeySize_isCheck _) fun hk =>
    .check (modeIvCheck_isCheck _ _) fun hiv => ?_
  have hvalid : modeValid m s :=
    ⟨(emptyData_eq_ok _).mp hn, (validKeySize_eq_ok _).mp hk, (modeIvCheck_eq_ok _ _).mp hiv⟩
  exact .init (modeValid_ranges hvalid).1 (h hvalid)

theorem encInput_waitsLegally (k : Option Scheme) (s : State) : WaitsLegally (encInput k s) := by
  cases k with
  | none => exact waitsLegally_ok _
  | some k =>
    obtain ⟨h1, hle⟩ := modeOvh_bounds k s.inLen.toNat
    have h16 := (modePadSize_bounds k).2
    rw [encInput_some]
    exact .bind (waitsLegally_trailer s k h1 (by omega)) fun t _ => waitsLegally_ok _

theorem encRest_waitsLegally {m : BMode} {k : Option Scheme} {s : State} (h : modeValid m s) :
    WaitsLegally (encRest m k s) := by
  obtain ⟨hkey, hiv⟩ := modeValid_ranges h
  refine .check (encAlignCheck_isCheck _ _) fun hal => .check (capCheck_isCheck _ _) fun _ =>
    .bind (encInput_waitsLegally k s) fun p hp => ?_
  have halign := (encAlignCheck_eq_ok _ _).mp hal
  rw [paddedLen_eq, ← length_of_encInput_eq_ok hp] at halign
  rw [encCalls_eq_calls]
  exact runBlocks_waitsLegally (encChain_asksBlocks m) (fun _ _ => ask_encryptBlock)
    (fun x hx => ⟨hkey, hx⟩) hiv halign

theorem decOutput_waitsLegally (k : Option Scheme) (p : Bytes) : WaitsLegally (decOutput k p) := by
  cases k with
  | none => exact waitsLegally_ok p
  | some k => exact .check (unpadAlignCheck_isCheck _ _) fun _ => waitsLegally_stripOr k p _

theorem decRequest_legal (m : BMode) {key x : Bytes} (hk : isAesSize key.length) (hx : x.length = 16) :
    (decRequest m key x).legal := by
  cases m <;> exact ⟨hk, hx⟩

theorem decRest_waitsLegally {m : BMode} {k : Option Scheme} {s : State} (h : modeValid m s) :
    WaitsLegally (decRest m k s) := by
  obtain ⟨hkey, hiv⟩ := modeValid_ranges h
  refine .check (decAlignCheck_isCheck _ _) fun hal => .check (capCheck_isCheck _ _) fun _ =>
    .bind ?_ fun p _ => decOutput_waitsLegally k p
  have halign := (decAlignCheck_eq_ok _ _).mp hal
  rw [← inBytes_length] at halign
  rw [decCalls_eq_calls]
  exact runBlocks_waitsLegally (decChain_asksBlocks m) (fun _ _ => ask_decRequest)
    (fun x hx => decRequest_legal m hkey hx) hiv halign

/-! ### GCM -/

/-- No variant takes an empty nonce (42_modes.md R188). -/
theorem nonceOk_pos {v : GVar} {n : Nat} (h : nonceOk v n) : 1 ≤ n := by
  unfold nonceOk at h
  split at h <;> omega

/-- The operands of a GCM command past its size checks are in the ranges of the AEAD port. -/
theorem gcmValid_ranges {v : GVar} {s : State} (h : gcmValid v s) :
    isAesSize s.keyBytes.length ∧ 1 ≤ s.ivBytes.length ∧ 12 ≤ gcmTag v s ∧ gcmTag v s ≤ 16 := by
  obtain ⟨-, hk, hnonce, htag⟩ := h
  rw [keyBytes_length, ivBytes_length]
  exact ⟨hk, nonceOk_pos hnonce, htag⟩

theorem gcmChecked_waitsLegally {v : GVar} {s : State} {rest : Cmd Bytes}
    (h : gcmValid v s → WaitsLegally rest) : WaitsLegally (gcmChecked v s rest) := by
  refine .check (emptyData_isCheck _) fun hn => .check (validKeySize_isCheck _) fun hk =>
    .check (nonceCheck_isCheck _ _) fun hiv => .check (validTagSize_isCheck _) fun ht => ?_
  have hvalid : gcmValid v s := ⟨(emptyData_eq_ok _).mp hn, (validKeySize_eq_ok _).mp hk,
    (nonceCheck_eq_ok_iff _ _).mp hiv, (validTagSize_eq_ok _).mp ht⟩
  obtain ⟨hkey, hnonce, htag⟩ := gcmValid_ranges hvalid
  exact .init hkey (.init ⟨by rwa [ivBytes_length] at hnonce, htag⟩ (h hvalid))

theorem gcmEncRest_waitsLegally {v : GVar} {s : State} (h : gcmValid v s) : WaitsLegally (gcmEncRest v s) := by
  obtain ⟨hkey, hnonce, hlo, hhi⟩ := gcmValid_ranges h
  exact .check (validDataSize_isCheck _ _) fun _ => .check (capCheck_isCheck _ _) fun _ =>
    waitsLegally_askData ⟨hlo, hhi, hkey, hnonce⟩

/-- DEC.GCM compares its input with the tag before it asks (42_modes.md R189). -/
theorem gcmShortCheck_eq_ok (n t : Nat) : gcmShortCheck n t = .ok () ↔ t ≤ n := by
  unfold gcmShortCheck raise
  split
  · simp only [reduceCtorEq, false_iff]; omega
  · simp only [true_iff]; omega

theorem gcmDecRest_waitsLegally {v : GVar} {s : State} (h : gcmValid v s) : WaitsLegally (gcmDecRest v s) := by
  obtain ⟨hkey, hnonce, hlo, hhi⟩ := gcmValid_ranges h
  refine .check (gcmDecSizeCheck_isCheck _ _) fun _ => .check (capCheck_isCheck _ _) fun _ =>
    .check (gcmShortCheck_isCheck _ _) fun hshort => waitsLegally_askBytes ?_ _ _
  exact ⟨hlo, hhi, hkey, hnonce, by rwa [inBytes_length, ← gcmShortCheck_eq_ok]⟩

/-- Every request of every command has its arguments in the ranges of the ports (60_exceptions.md R251). -/
theorem body_waitsLegally (c : Command) (s : State) : WaitsLegally (Command.body c s) := by
  cases c with
  | pad k => exact padCmd_waitsLegally k s
  | unpad k => exact unpadCmd_waitsLegally k s
  | val p => exact valCmd_waitsLegally (predCheck_isCheck p _ _)
  | enc m k => exact modeChecked_waitsLegally encRest_waitsLegally
  | dec m k => exact modeChecked_waitsLegally decRest_waitsLegally
  | encGcm v =>
    rw [Command.body, gcmEnc_eq_gcmChecked]
    exact gcmChecked_waitsLegally gcmEncRest_waitsLegally
  | decGcm v =>
    rw [Command.body, gcmDec_eq_gcmChecked]
    exact gcmChecked_waitsLegally gcmDecRest_waitsLegally

end Sys2Proof.Machine
end

section
/-! PROOFS. The obligations of 60_exceptions.md, from the lemmas above. -/

namespace Sys2Proof.Proofs

open Sys2Proof.Machine

/-- Settles O14: DONE rises with a completion, by `step_results`, and falls with the three writes and reset. -/
theorem completionInterrupt : Obligations.CompletionInterrupt := by
  refine ⟨fun s => by simp [State.irq], fun i s t hbusy h hidle => ?_, fun s t ts hseq hbusy h hidle => ?_,
    fun s t h hclear hset => ?_, fun s v ts hidle h hv => ?_, fun s v ts hidle h => ?_, fun s ts h => ?_,
    fun s v ts hidle h => ?_⟩
  · rcases exec_end hbusy h hidle with ⟨out, -, rfl⟩ | ⟨code, arg, -, rfl⟩ <;> rfl
  · rcases step_results h with hc | ⟨ts', hturn⟩ | hkept
    · exact hc.done
    · rcases hseq with hturn' | ⟨hturn', -⟩ <;> cases hturn.symm.trans hturn'
    · cases hidle.symm.trans (hkept.busy hbusy)
  · rcases step_results h with hc | ⟨ts, hturn⟩ | hkept
    · exact ⟨hc.sequencer, hc.busy, hc.idle⟩
    · rw [step_reset hturn] at h
      cases h
      cases hset
    · cases hclear.symm.trans (hkept.done hset)
  · exact ⟨_, step_writeReg (r := .status) hidle h, by simp [writeReg, hv], by simp [State.irq, writeReg, hv]⟩
  · exact ⟨_, step_writeReg (r := .cmd) hidle h, rfl, rfl⟩
  · exact ⟨_, step_reset h, rfl, rfl⟩
  · exact ⟨_, step_writeReg (r := .ctrl) hidle h, rfl, rfl⟩

/-- Settles O22: what is no completion and no reset keeps Busy and raises no DONE, so irq can rise only with
IE. -/
theorem onlyResetInterruptsCommand : Obligations.OnlyResetInterruptsCommand := by
  intro s t h
  refine ⟨fun hbusy hidle => ?_, fun hlow hhigh => ?_⟩
  · rcases step_results h with hc | hreset | hkept
    · exact .inl hc.sequencer
    · exact .inr hreset
    · cases hidle.symm.trans (hkept.busy hbusy)
  · obtain ⟨hdone, hie⟩ : t.done = true ∧ t.ie = true := Bool.and_eq_true_iff.mp hhigh
    rcases step_results h with hc | ⟨ts, hturn⟩ | hkept
    · exact .inl ⟨hc.sequencer, hc.busy, hc.idle⟩
    · rw [step_reset hturn] at h
      cases h
      cases hdone
    · have hsdone := hkept.done hdone
      have hclear : s.ie = false := by simpa [State.irq, hsdone] using hlow
      obtain ⟨hidle, hwrite⟩ := step_sets_ie h hclear hie
      exact .inr ⟨hidle, hsdone, hwrite⟩

/-- Settles O23: what is no completion and no reset keeps the results. -/
theorem resultsChangeOnlyAtCompletion : Obligations.ResultsChangeOnlyAtCompletion := by
  intro s t h hchange
  rcases step_results h with hc | hreset | hkept
  · exact .inl ⟨hc.sequencer, hc.busy, hc.idle, hc.done⟩
  · exact .inr hreset
  · simp [hkept.err, hkept.errarg, hkept.outLen, hkept.outByte] at hchange

/-- Settles O27: the closed forms of a success, and a command that ends without an error has finished. -/
theorem successEffect : Obligations.SuccessEffect := by
  refine ⟨fun s out hp hl => ?_, fun i s t hbusy h hidle hok => ?_⟩
  · have hcap := hp.2
    refine ⟨by simp; omega, rfl, rfl, rfl, rfl, fun k => outByte_finish s out k (by omega),
      sameOperands_finish s out, fun b k hb hk => byteAt_finish_of_outside s out _ ?_⟩
    have := inputByte_lt_output hb hk
    omega
  · rcases exec_end hbusy h hidle with hfin | ⟨code, arg, hc, rfl⟩
    · exact hfin
    · exact absurd hok hc

/-- Settles O28: the closed forms of a failure, and a command that ends with an error has raised it. -/
theorem failureEffect : Obligations.FailureEffect := by
  refine ⟨fun s code arg harg => ?_, fun i s t hbusy h hidle herr => ?_⟩
  · exact ⟨rfl, rfl, Nat.mod_eq_of_lt harg, rfl, rfl, fun _ => rfl, sameOperands_raiseErr s code arg, fun _ => rfl⟩
  · rcases exec_end hbusy h hidle with ⟨out, -, rfl⟩ | ⟨code, arg, -, rfl⟩
    · exact absurd rfl herr
    · exact (raiseErr_errarg_toNat s code arg).symm

/-- Settles O20: the arrival by `answerArrives`, the answers a request can have by `fits`, and each law between two
answers by what its earlier answer binds the later one to. -/
theorem answerTakesEffect : Obligations.AnswerTakesEffect := by
  refine ⟨fun s o a ts hp hturn hask => ⟨fun hl => ?_, fun hl => ?_⟩, fun s k a ts hturn hne => ?_,
    fun s t h => step_transcript h, fun key x a => ?_, fun n t key nonce p aad a => ?_,
    fun l q a hl => fits_of_lawfulAnswer hl, fun l key n t k a => ?_, fun l key x y x' y' hmem => ?_,
    fun l t key nonce p aad c c' r hmem => ?_, fun l t t' key key' nonce nonce' p p' aad aad' c c' hmem => ?_⟩
  · refine ⟨_, (step_collaborator hturn).trans (answerArrives_lawful hp hl), rfl, ?_⟩
    exact ask_append rfl (fits_of_lawfulAnswer hl) hask
  · exact (step_collaborator hturn).trans (answerArrives_unlawful hp hl)
  · exact (step_collaborator hturn).trans (answerArrives_ignored hne)
  · exact ⟨fits_cipherInit key a, fits_encryptBlock key x a, fits_decryptBlock key x a⟩
  · exact ⟨fits_aeadInit n t a, fits_sealData t key nonce p aad a, fits_openData t key nonce p aad a,
      fits_rngFill n a⟩
  · exact ⟨lawfulAnswer_of_lawless rfl l a, lawfulAnswer_of_lawless rfl l a, lawfulAnswer_of_lawless rfl l a⟩
  · obtain ⟨z, hz, hpair⟩ : ∃ z ∈ l, z.blockPair = some (key, x, y) := by
      rcases hmem with hmem | hmem <;> exact ⟨_, hmem, rfl⟩
    exact ⟨fun hl => ((blockPair_iff hl hz hpair rfl).mp rfl).symm,
      fun hl => ((blockPair_iff hl hz hpair rfl).mpr rfl).symm,
      fun hl => ((blockPair_iff hl hz hpair rfl).mpr rfl).symm,
      fun hl => ((blockPair_iff hl hz hpair rfl).mp rfl).symm⟩
  · obtain ⟨hsame, hother⟩ := seal_after_seal (c' := c') hmem
    obtain ⟨hopen, hfail⟩ := open_after_seal (c' := c') (r := r) hmem
    refine ⟨hsame, hopen, fun t' key' nonce' p' aad' => ⟨hother t' key' nonce' p' aad', ?_⟩⟩
    exact hfail t' key' nonce' aad'
  · exact seal_after_open hmem t' key' nonce' p' aad'

/-- Settles O25: a pseudocode finishes, raises a code other than OK, or waits, and what it waits for is
unanswered and in its ranges. -/
theorem commandEndsOrWaits : Obligations.CommandEndsOrWaits := by
  intro i s hbusy
  refine ⟨_, exec_eq i s, ?_⟩
  rcases body_goodEnd i.command s with ⟨out, hbody, -⟩ | ⟨code, arg, hcode, hbody⟩ | ⟨q, hask, hbody⟩
  · rw [hbody]
    exact .inl ⟨rfl, rfl, rfl, fun herr => absurd rfl herr, fun _ => rfl⟩
  · rw [hbody]
    exact .inl ⟨rfl, rfl, rfl, fun _ => rfl, fun hok => absurd hok hcode⟩
  · have hlegal := body_waitsLegally i.command s q hbody
    obtain ⟨o, n, hwait, rfl, -⟩ := waitFor_eq s q
    rw [hbody, conclude_wait, hwait]
    exact .inr ⟨hbusy, o, rfl, hask, hlegal⟩

end Sys2Proof.Proofs
end

section
/-! PROOFS. Runs by what each of their steps keeps, and the requests over a run: a number that is no longer
outstanding is not issued again (70_reset_and_hazards.md R271; log 5). -/

namespace Sys2Proof.Machine

/-! ### Runs -/

/-- A run of at least one step is its first step and the rest. -/
theorem run_succ_eq_next (M : Host.Core) {n : Nat} {s u : M.State} (h : M.run (n + 1) s = .next u) :
    ∃ t, M.step s = .next t ∧ M.run n t = .next u := by
  rw [Host.Core.run] at h
  split at h
  case h_1 t ht => exact ⟨t, ht, h⟩
  case h_2 => cases h
  case h_3 => cases h

/-- What every step keeps, every run keeps. -/
theorem run_keeps {P : State → Prop} (hstep : ∀ s t, P s → step s = .next t → P t) {n : Nat} {s u : State}
    (hs : P s) (h : Host.Core.run Sys2Proof.core n s = .next u) : P u := by
  induction n generalizing s with
  | zero => cases h; exact hs
  | succ n ih =>
    obtain ⟨t, ht, hrun⟩ := run_succ_eq_next _ h
    exact ih (hstep s t hs ht) hrun

/-! ### The requests over a run -/

/-- The request counter does not go back, and a request that is outstanding was so before or has a number from
the counter. -/
structure RequestsGoOn (s t : State) : Prop where
  tickets : s.tickets ≤ t.tickets
  pending : ∀ o, t.pending = some o → s.pending = some o ∨ s.tickets ≤ o.ticket

theorem requestsGoOn_refl (s : State) : RequestsGoOn s s := ⟨Nat.le_refl _, fun _ => .inl⟩

/-- Where the outstanding request is dropped, only the counter matters. -/
theorem requestsGoOn_of_none {s t : State} (ht : s.tickets ≤ t.tickets) (hp : t.pending = none) :
    RequestsGoOn s t := ⟨ht, fun o ho => by rw [hp] at ho; cases ho⟩

theorem requestsGoOn_waitFor (s : State) (q : Request) : RequestsGoOn s (waitFor s q) := by
  obtain ⟨o, n, heq, -, hle, ⟨-, hold⟩ | ⟨-, hnew⟩⟩ := waitFor_eq s q <;> rw [heq]
  · exact ⟨hle, fun p hp => by cases hp; exact .inl hold⟩
  · exact ⟨hle, fun p hp => by cases hp; exact .inr hnew.ge⟩

theorem requestsGoOn_sequencerStep {s t : State} (h : sequencerStep s = .next t) : RequestsGoOn s t := by
  rcases sequencerStep_next h with ⟨-, rfl⟩ | ⟨-, out, -, rfl⟩ | ⟨-, code, arg, -, rfl⟩ | ⟨-, q, -, rfl⟩
  · exact requestsGoOn_refl _
  · exact requestsGoOn_of_none (Nat.le_refl _) rfl
  · exact requestsGoOn_of_none (Nat.le_refl _) rfl
  · exact requestsGoOn_waitFor s q

theorem requestsGoOn_answerArrives {s t : State} {k : Nat} {a : Answer} (h : answerArrives s k a = .next t) :
    RequestsGoOn s t := by
  rcases answerArrives_next h with rfl | ⟨o, -, -, -, rfl⟩
  · exact requestsGoOn_refl _
  · exact requestsGoOn_of_none (Nat.le_refl _) rfl

/-- The only write that touches the requests is that of CMD, which starts a command with none. -/
theorem requestsGoOn_writeReg (s : State) (v : Word) (r : Reg) : RequestsGoOn s (writeReg s v r) := by
  cases r
  case cmd => exact requestsGoOn_of_none (Nat.le_refl _) rfl
  all_goals exact { requestsGoOn_refl s with }

theorem requestsGoOn_writeIdle (s : State) (v : Word) (off : Nat) (w : Width) :
    RequestsGoOn s (writeIdle s v off w) := by
  unfold writeIdle
  split
  · split
    · exact requestsGoOn_writeReg s v _
    · exact requestsGoOn_refl s
  · obtain ⟨m, hm⟩ := writeWindow_eq s v off w.bytes
    rw [hm]
    exact { requestsGoOn_refl s with }

theorem requestsGoOn_busAccess {a : Access} {s t : State} (h : busAccess a s = .next t) : RequestsGoOn s t := by
  rcases busAccess_next h with rfl | ⟨off, -, -, -, rfl⟩ | ⟨off, v, -, -, -, rfl⟩ | rfl
  · exact requestsGoOn_refl _
  · exact { requestsGoOn_refl s with }
  · unfold busWrite
    split
    · exact { requestsGoOn_refl s with }
    · exact { requestsGoOn_writeIdle s v off a.width with }
  · exact { requestsGoOn_refl s with }

/-- No agent's move takes the request counter back or makes an earlier number outstanding. -/
theorem step_requestsGoOn {s t : State} (h : step s = .next t) : RequestsGoOn s t := by
  rcases step_next h with ⟨ts, -, hs⟩ | ⟨a, ts, -, hs⟩ | ⟨k, a, ts, -, hs⟩ | ⟨ts, -, rfl⟩
  · exact { requestsGoOn_sequencerStep hs with }
  · exact { requestsGoOn_busAccess hs with }
  · exact { requestsGoOn_answerArrives hs with }
  · exact requestsGoOn_of_none (Nat.le_refl _) rfl

/-- The number has been issued and is not outstanding. -/
structure TicketRetired (k : Nat) (s : State) : Prop where
  issued : k < s.tickets
  absent : ∀ o, s.pending = some o → o.ticket ≠ k

/-- A retired number stays retired, because the numbers from the counter lie above it. -/
theorem TicketRetired.step {k : Nat} {s t : State} (hk : TicketRetired k s) (h : Machine.step s = .next t) :
    TicketRetired k t := by
  obtain ⟨hissued, habsent⟩ := hk
  obtain ⟨htickets, hpending⟩ := step_requestsGoOn h
  refine ⟨by omega, fun o ho => ?_⟩
  rcases hpending o ho with hold | hnew
  · exact habsent o hold
  · omega

/-- A reset retires the number of the request it abandons (70_reset_and_hazards.md R271). -/
theorem ticketRetired_resetEvent {s : State} {o : Outstanding} (hi : Inv s) (hp : s.pending = some o) :
    TicketRetired o.ticket (resetEvent s) := ⟨hi.ticketUsed o hp, nofun⟩

/-- The answer to a retired number changes nothing. -/
theorem step_retired_answer {s : State} {k : Nat} {a : Answer} {ts : List Turn} (hk : TicketRetired k s)
    (h : s.turns = .collaborator k a :: ts) : step s = .next { s with turns := ts } :=
  (step_collaborator h).trans (answerArrives_ignored hk.absent)

end Sys2Proof.Machine
end

section
/-! PROOFS. A command that waits, while no reset and no answer to its request comes: the host's accesses touch
no operand of it, so the sequencer finds it where it was (70_reset_and_hazards.md R274, R275, R280). -/

namespace Sys2Proof.Machine

/-- The machine is Busy with a command that has got as far as the outstanding request. -/
structure WaitsFor (o : Outstanding) (s : State) : Prop where
  busy    : s.busy = true
  pending : s.pending = some o
  command : ∃ i, decode s.cmd = .ok i ∧ Command.body i.command s = .error (.wait o.request)

/-- A busy machine whose sequencer stands still waits for its outstanding request. -/
theorem waitsFor_of_sequencerStep_eq_self {s : State} {o : Outstanding} (hb : s.busy = true)
    (hp : s.pending = some o) (h : sequencerStep s = .next s) : WaitsFor o s := by
  refine ⟨hb, hp, ?_⟩
  have hends : ∀ t : State, t.busy = false → sequencerStep s ≠ .next t := by
    rintro t ht he
    cases h.symm.trans he
    cases hb.symm.trans ht
  rcases sequencerStep_cases s with ⟨hidle, -⟩ | ⟨-, i, hd, he⟩ | ⟨-, -, he⟩
  · cases hb.symm.trans hidle
  · refine ⟨i, hd, ?_⟩
    rw [exec_eq] at he
    rcases body_goodEnd i.command s with ⟨out, hbody, -⟩ | ⟨code, arg, -, hbody⟩ | ⟨q, -, hbody⟩ <;>
      rw [hbody] at he ⊢
    · exact absurd he (hends _ rfl)
    · exact absurd he (hends _ rfl)
    · have hs : s = waitFor s q := Host.Outcome.next.inj (h.symm.trans he)
      have hreq := waitFor_request s q
      rw [← hs, hp] at hreq
      cases hreq
      rfl
  · exact absurd he (hends _ rfl)

/-- A request that is outstanding is not issued again (60_exceptions.md R251). -/
theorem waitFor_outstanding {s : State} {o : Outstanding} (h : s.pending = some o) :
    waitFor s o.request = s := by
  simp [waitFor, h]

theorem WaitsFor.sequencerStep_eq_self {o : Outstanding} {s : State} (h : WaitsFor o s) :
    sequencerStep s = .next s := by
  obtain ⟨hb, hp, i, hd, hbody⟩ := h
  rw [sequencerStep_decoded hb hd, exec_eq, hbody, conclude_wait, waitFor_outstanding hp]

/-- What a busy machine's turns can leave behind beside its own moves: BUSYWR, a reply, draws and fewer turns. -/
def OnlyHostActed (s t : State) : Prop :=
  ∃ ts b r d, t = { s with turns := ts, busywr := b, reply := r, draws := d }

theorem onlyHostActed_trans {s t u : State} (h : OnlyHostActed s t) (h' : OnlyHostActed t u) :
    OnlyHostActed s u := by
  obtain ⟨_, _, _, _, rfl⟩ := h
  obtain ⟨ts, b, r, d, rfl⟩ := h'
  exact ⟨ts, b, r, d, rfl⟩

/-- None of it is an operand of the command. -/
theorem WaitsFor.onlyHostActed {o : Outstanding} {s t : State} (h : WaitsFor o s) (ht : OnlyHostActed s t) :
    WaitsFor o t := by
  obtain ⟨hb, hp, i, hd, hbody⟩ := h
  obtain ⟨ts, b, r, d, rfl⟩ := ht
  refine ⟨hb, hp, i, hd, hbody ▸ body_congr (fun o _ => ?_) rfl rfl⟩
  cases o <;> rfl

/-- The host's accesses while Busy (70_reset_and_hazards.md R274, R275). -/
theorem busAccess_busy {a : Access} {s t : State} (h : busAccess a s = .next t) (hb : s.busy = true) :
    ∃ b r d, t = { s with busywr := b, reply := r, draws := d } := by
  rcases busAccess_next h with rfl | ⟨off, -, -, -, rfl⟩ | ⟨off, v, -, -, -, rfl⟩ | rfl
  · exact ⟨_, _, _, rfl⟩
  · exact ⟨_, _, _, rfl⟩
  · rw [busWrite, if_pos hb]
    exact ⟨_, _, _, rfl⟩
  · exact ⟨_, _, _, rfl⟩

/-- No reset and no answer to the request is among the turns. -/
def leavesUnanswered (o : Outstanding) (ts : List Turn) : Prop :=
  ∀ x ∈ ts, x ≠ .reset ∧ ∀ a, x ≠ .collaborator o.ticket a

/-- A step of a machine that waits and stays unanswered takes the first turn off the list, and what it does beside
that is the host's. -/
theorem WaitsFor.step {o : Outstanding} {s t : State} (hw : WaitsFor o s) (hts : leavesUnanswered o s.turns)
    (h : Machine.step s = .next t) : OnlyHostActed s t ∧ leavesUnanswered o t.turns := by
  have htail {x : Turn} {ts : List Turn} (hturn : s.turns = x :: ts) : leavesUnanswered o ts := fun y hy =>
    hts y (hturn ▸ List.mem_cons_of_mem x hy)
  have hpop (ts : List Turn) : OnlyHostActed s { s with turns := ts } := ⟨ts, _, _, _, rfl⟩
  rcases step_next h with ⟨ts, hturn, hs⟩ | ⟨a, ts, hturn, hs⟩ | ⟨k, a, ts, hturn, hs⟩ | ⟨ts, hturn, -⟩
  · cases (hw.onlyHostActed (hpop ts)).sequencerStep_eq_self.symm.trans hs
    refine ⟨hpop ts, ?_⟩
    rcases hturn with ⟨-, rfl⟩ | hturn
    · nofun
    · exact htail hturn
  · obtain ⟨b, r, d, rfl⟩ := busAccess_busy hs hw.busy
    exact ⟨⟨ts, b, r, d, rfl⟩, htail hturn⟩
  · have hne : o.ticket ≠ k := by
      rintro rfl
      exact (hts _ (hturn ▸ List.mem_cons_self)).2 a rfl
    have hignored : answerArrives { s with turns := ts } k a = .next { s with turns := ts } :=
      answerArrives_ignored fun p hp => by cases hw.pending.symm.trans hp; exact hne
    cases hignored.symm.trans hs
    exact ⟨hpop ts, htail hturn⟩
  · exact absurd rfl (hts .reset (hturn ▸ List.mem_cons_self)).1

end Sys2Proof.Machine
end

section
/-! PROOFS. The obligations of 70_reset_and_hazards.md about requests that are abandoned or not answered, from the
lemmas above. -/

namespace Sys2Proof.Proofs

open Sys2Proof.Machine

/-- Settles O3: the reset retires the request's number, every step keeps it retired, and the answer to a retired
number changes nothing. -/
theorem abandonedAnswerIgnored : Obligations.AbandonedAnswerIgnored := by
  intro s u o ts us n a hi hp hreset hrun hanswer
  obtain ⟨t, ht, hrest⟩ := run_succ_eq_next _ hrun
  cases (step_reset hreset).symm.trans ht
  have hretired : TicketRetired o.ticket (resetEvent { s with turns := ts }) :=
    ticketRetired_resetEvent { hi with } hp
  exact step_retired_answer (run_keeps (fun _ _ hk => hk.step) hretired hrest) hanswer

/-- Settles O21: the machine still waits after each step, so only the host has acted, and the host touches neither
the results nor the storage. -/
theorem unansweredRequestKeepsBusy : Obligations.UnansweredRequestKeepsBusy := by
  intro s u o n hb hp hstuck hts hrun
  have hw := waitsFor_of_sequencerStep_eq_self hb hp hstuck
  have hkeeps : OnlyHostActed s u ∧ leavesUnanswered o u.turns := by
    refine run_keeps (P := fun t => OnlyHostActed s t ∧ leavesUnanswered o t.turns) ?_ ?_ hrun
    · rintro t t' ⟨hacted, hleft⟩ hstep
      obtain ⟨hacted', hleft'⟩ := (hw.onlyHostActed hacted).step hleft hstep
      exact ⟨onlyHostActed_trans hacted hacted', hleft'⟩
    · exact ⟨⟨_, _, _, _, rfl⟩, hts⟩
  obtain ⟨⟨ts, b, r, d, rfl⟩, -⟩ := hkeeps
  exact ⟨hb, hp, rfl, rfl, rfl, rfl, rfl⟩

end Sys2Proof.Proofs
end

section
/-! PROOFS. How many requests a pseudocode makes when each is answered: one for a construction, a filler, a Seal or
an Open, and one for each block of a transform (42_modes.md R212; 70_reset_and_hazards.md R281). -/

namespace Sys2Proof.Machine

/-! ### A pseudocode as the answers come in -/

/-- The state with these answers had so far. -/
def State.withAnswers (s : State) (xs : List Answered) : State := { s with answers := xs }

@[simp] theorem withAnswers_ask (s : State) (xs : List Answered) (q : Request) :
    (s.withAnswers xs).ask q = findAnswer xs q := rfl

/-- After the answers `xs`, the pseudocode comes to an end within `n` further answers, whatever they are. -/
def AsksFrom {α : Type} (c : List Answered → Cmd α) : Nat → List Answered → Prop
  | 0, xs => ∀ q, c xs ≠ .error (.wait q)
  | n + 1, xs => ∀ q a, c xs = .error (.wait q) → q.fits a = true → AsksFrom c n (xs ++ [⟨q, a⟩])

/-- The pseudocode makes at most `n` requests, whatever answers it starts with. -/
def AsksAtMost {α : Type} (n : Nat) (c : List Answered → Cmd α) : Prop := ∀ xs, AsksFrom c n xs

section
variable {α β : Type} {c : List Answered → Cmd α} {m n : Nat} {xs : List Answered}

theorem asksFrom_of_not_waits (h : ∀ q, c xs ≠ .error (.wait q)) : AsksFrom c n xs := by
  cases n with
  | zero => exact h
  | succ n => exact fun q _ hq => absurd hq (h q)

theorem AsksFrom.succ (h : AsksFrom c n xs) : AsksFrom c (n + 1) xs := by
  induction n generalizing xs with
  | zero => exact asksFrom_of_not_waits h
  | succ n ih => exact fun q a hq ha => ih (h q a hq ha)

theorem AsksAtMost.mono (hmn : m ≤ n) (h : AsksAtMost m c) : AsksAtMost n c := by
  induction hmn with
  | refl => exact h
  | step _ ih => exact fun xs => (ih xs).succ

/-- A pseudocode that waits only where another does asks no more than the other. -/
theorem AsksFrom.of_waits {c' : List Answered → Cmd β} (h : AsksFrom c n xs)
    (hwait : ∀ zs q, c' (xs ++ zs) = .error (.wait q) → c (xs ++ zs) = .error (.wait q)) : AsksFrom c' n xs := by
  induction n generalizing xs with
  | zero =>
    have hnow := hwait []
    rw [List.append_nil] at hnow
    exact fun q hq => h q (hnow q hq)
  | succ n ih =>
    have hnow := hwait []
    rw [List.append_nil] at hnow
    refine fun q a hq ha => ih (h q a (hnow q hq) ha) fun zs => ?_
    rw [List.append_assoc]
    exact hwait ([⟨q, a⟩] ++ zs)

theorem asksAtMost_of_not_waits (h : ∀ xs q, c xs ≠ .error (.wait q)) : AsksAtMost n c :=
  fun xs => asksFrom_of_not_waits (h xs)

theorem asksAtMost_ok (a : α) : AsksAtMost n fun _ => .ok a := asksAtMost_of_not_waits fun _ => nofun

theorem asksAtMost_raise (code : Code) (arg : Nat) : AsksAtMost n fun _ => (raise code arg : Cmd α) :=
  asksAtMost_of_not_waits fun _ => nofun

/-- A check in front asks nothing. -/
theorem AsksAtMost.check {x : List Answered → Cmd Unit} (hx : ∀ xs, IsCheck (x xs)) (h : AsksAtMost n c) :
    AsksAtMost n fun xs => x xs >>= fun _ => c xs :=
  fun xs => (h xs).of_waits fun zs q hq => by
    rcases hx (xs ++ zs) with hok | ⟨code, arg, -, hraise⟩
    · rwa [hok] at hq
    · rw [hraise] at hq; cases hq

/-- What follows asks nothing. -/
theorem AsksAtMost.bind {f : α → List Answered → Cmd β} (h : AsksAtMost n c)
    (hf : ∀ a xs q, f a xs ≠ .error (.wait q)) : AsksAtMost n fun xs => c xs >>= fun a => f a xs :=
  fun xs => (h xs).of_waits fun _ q hq =>
    (cmd_bind_eq_error.mp hq).resolve_right fun ⟨a, _, ha⟩ => hf a _ q ha

/-- An answer is not displaced by later ones. -/
theorem findAnswer_append_of_some {q : Request} {a : Answer} (h : findAnswer xs q = some a) (zs : List Answered) :
    findAnswer (xs ++ zs) q = some a := by
  induction xs with
  | nil => cases h
  | cons x xs ih =>
    unfold findAnswer at h
    rw [List.cons_append, findAnswer]
    split at h
    · rw [if_pos ‹_›, h]
    · rw [if_neg ‹_›, ih h]

/-- One request in front: a wait until it is answered, and what its answer makes of the rest after that. -/
theorem AsksAtMost.request (q : Request) (rest : Answer → List Answered → Cmd α)
    (hnone : ∀ ys, findAnswer ys q = none → c ys = .error (.wait q))
    (hsome : ∀ ys a, findAnswer ys q = some a → c ys = rest a ys)
    (h : ∀ a, q.fits a = true → AsksAtMost n (rest a)) : AsksAtMost (n + 1) c := by
  have hanswered {ys : List Answered} {a : Answer} (ha : findAnswer ys q = some a) : AsksFrom c n ys :=
    (h a (findAnswer_fits ha).1 ys).of_waits fun zs r hr =>
      hsome _ a (findAnswer_append_of_some ha zs) ▸ hr
  intro xs
  rcases hx : findAnswer xs q with _ | a
  · intro r a hr ha
    cases (hnone xs hx).symm.trans hr
    exact hanswered (by rw [findAnswer_append _ _ _ _ ha, hx]; exact if_pos rfl)
  · exact (hanswered hx).succ

end

/-! ### The requests of the collaborators -/

section
variable {s : State} {n : Nat}

/-- What an answered construction does. -/
def initEnd (a : Answer) : Cmd Unit := if a = .fail then raise .cipherInitFailed 0 else .ok ()

theorem askInit_of_some {s : State} {q : Request} {a : Answer} (h : s.ask q = some a) : askInit s q = initEnd a := by
  rw [askInit, h]
  cases a <;> rfl

theorem AsksAtMost.init (q : Request) {c : List Answered → Cmd Bytes} (h : AsksAtMost n c) :
    AsksAtMost (n + 1) fun xs => askInit (s.withAnswers xs) q >>= fun _ => c xs :=
  .request q (fun a xs => initEnd a >>= fun _ => c xs)
    (fun xs hn => by rw [askInit_of_none (s := s.withAnswers xs) hn, cmd_error_bind])
    (fun xs _ ha => by rw [askInit_of_some (s := s.withAnswers xs) ha])
    fun _ _ => .check (fun _ => isCheck_ite (by decide)) h

/-- What an answered request for bytes does. -/
def bytesEnd (code : Code) (arg : Nat) : Answer → Cmd Bytes
  | .bytes b => .ok b
  | .ok | .fail => raise code arg

theorem AsksAtMost.askBytes (q : Request) (code : Code) (arg : Nat) {f : Bytes → List Answered → Cmd Bytes}
    (h : ∀ b, q.fits (.bytes b) = true → AsksAtMost n (f b)) :
    AsksAtMost (n + 1) fun xs => Machine.askBytes (s.withAnswers xs) q code arg >>= fun b => f b xs := by
  refine .request q (fun a xs => bytesEnd code arg a >>= fun b => f b xs) (fun xs hn => ?_) (fun xs a ha => ?_)
    fun a hfits => ?_
  · rw [Machine.askBytes, withAnswers_ask, hn, cmd_error_bind]
  · rw [Machine.askBytes, withAnswers_ask, ha]
    cases a <;> rfl
  · cases a with
    | bytes b => exact h b hfits
    | ok | fail => exact asksAtMost_raise code arg

theorem asksAtMost_askBytes (q : Request) (code : Code) (arg : Nat) :
    AsksAtMost 1 fun xs => askBytes (s.withAnswers xs) q code arg := by
  have h := AsksAtMost.askBytes (s := s) (n := 0) q code arg (f := fun b _ => pure b) fun b _ => asksAtMost_ok b
  simpa only [bind_pure] using h

/-- Only bytes can be the answer to a Seal request, so no code is raised (42_modes.md R208). -/
theorem askData_sealData (s : State) (t : Nat) (key nonce p aad : Bytes) (code : Code) (arg : Nat) :
    askData s (.sealData t key nonce p aad) = askBytes s (.sealData t key nonce p aad) code arg := by
  rw [askData, askBytes]
  rcases h : s.ask (.sealData t key nonce p aad) with _ | a
  · rfl
  · obtain ⟨b, rfl, -⟩ := (fits_sealData t key nonce p aad a).mp (ask_fits h)
    rfl

/-- A trailer asks for a filler at most (40_padding.md R102). -/
theorem AsksAtMost.trailer (k : Scheme) (ov : Nat) {f : Bytes → List Answered → Cmd Bytes}
    (h : ∀ t, t.length ≤ ov + 1 → AsksAtMost n (f t)) :
    AsksAtMost (n + 1) fun xs => Machine.trailer (s.withAnswers xs) k ov >>= fun t => f t xs := by
  cases k
  case iso10126 =>
    by_cases h1 : ov = 1
    · simp only [Machine.trailer, h1, if_true, cmd_ok_bind]
      exact (h _ (by simp [h1])).mono (Nat.le_succ n)
    · simp only [trailer_of_filler _ h1, bind_assoc, cmd_ok_bind]
      refine .askBytes _ _ _ fun r hr => h _ ?_
      simp only [Request.fits, beq_iff_eq] at hr
      simp [hr]
  all_goals exact (h _ (by simp [repeatByte]; try omega)).mono (Nat.le_succ n)

/-- What a block answer makes of the cipher. -/
def blockOf : Answer → Bytes
  | .bytes y => y
  | .ok | .fail => []

theorem cipherFn_of_some {q : Bytes → Request} {x : Bytes} {a : Answer} (h : s.ask (q x) = some a) :
    s.cipherFn q x = blockOf a := by
  rw [State.cipherFn, h]
  cases a <;> rfl

/-- The block requests of a transform are as many as its blocks. Each input is fixed once the blocks before it are
answered. -/
theorem asksAtMost_askAll (c : Chain) (q : Bytes → Request) (prev : Bytes) (bs : List Bytes) :
    AsksAtMost bs.length fun xs =>
      askAll (s.withAnswers xs)
        ((c.calls ((s.withAnswers xs).cipherFn q) prev bs).map fun x => q x.input) := by
  induction bs generalizing prev with
  | nil => exact asksAtMost_ok ()
  | cons b bs ih =>
    refine .request (q (c.input prev b)) _ (fun xs hn => ?_) (fun xs a ha => ?_) fun a _ =>
      ih (c.next prev b (blockOf a))
    · simp [Chain.calls, askAll, hn]
    · simp [Chain.calls, askAll, ha, cipherFn_of_some (s := s.withAnswers xs) ha]

theorem asksAtMost_runBlocks (c : Chain) (q : Bytes → Request) (iv p : Bytes) :
    AsksAtMost (blocks p).length fun xs =>
      runBlocks (s.withAnswers xs) q (c.calls ((s.withAnswers xs).cipherFn q) iv (blocks p)) :=
  .bind (asksAtMost_askAll c q iv (blocks p)) fun _ _ => nofun

/-! ### The commands -/

theorem asksAtMost_padCmd (k : Scheme) : AsksAtMost 1 fun xs => padCmd k (s.withAnswers xs) :=
  .check (fun _ => padEmptyCheck_isCheck _) <| .check (fun _ => padBlockCheck_isCheck _) <|
    .check (fun _ => capCheck_isCheck _ _) <|
      .trailer k (ovh s.inLen.toNat (padB k s.blksz.toNat)) fun t _ => asksAtMost_ok (s.inBytes ++ t)

theorem stripOr_not_waits (k : Scheme) (d : Bytes) (b : Nat) (q : Request) : stripOr k d b ≠ .error (.wait q) := by
  rcases stripOr_cases k d b with ⟨out, -, he, -⟩ | ⟨-, he⟩ <;> rw [he] <;> nofun

theorem asksAtMost_unpadCmd (k : Scheme) : AsksAtMost 0 fun xs => unpadCmd k (s.withAnswers xs) :=
  .check (fun _ => padEmptyCheck_isCheck _) <| .check (fun _ => padBlockCheck_isCheck _) <|
    .check (fun _ => unpadAlignCheck_isCheck _ _) <| .check (fun _ => capCheck_isCheck _ _) <|
      asksAtMost_of_not_waits fun _ => stripOr_not_waits k _ _

theorem AsksAtMost.modeChecked (m : BMode) {rest : List Answered → Cmd Bytes} (h : AsksAtMost n rest) :
    AsksAtMost (n + 1) fun xs => Machine.modeChecked m (s.withAnswers xs) (rest xs) :=
  .check (fun _ => emptyData_isCheck _) <| .check (fun _ => validKeySize_isCheck _) <|
    .check (fun _ => modeIvCheck_isCheck _ _) <| .init (.cipherInit s.keyBytes) h

/-- What ENC encrypts is at most 17 bytes longer than IN, and at most the filler is asked for. -/
theorem AsksAtMost.encInput (k : Option Scheme) {f : Bytes → List Answered → Cmd Bytes}
    (h : ∀ p, p.length ≤ s.inLen.toNat + 17 → AsksAtMost n (f p)) :
    AsksAtMost (n + 1) fun xs => Machine.encInput k (s.withAnswers xs) >>= fun p => f p xs := by
  cases k with
  | none => exact (h s.inBytes (by simp)).mono (Nat.le_succ n)
  | some k =>
    have hov := modeOvh_le (some k) s.inLen.toNat
    simp only [encInput_some, bind_assoc, cmd_ok_bind]
    exact .trailer k (modeOvh (some k) s.inLen.toNat) fun t ht => h (s.inBytes ++ t) (by simp; omega)

theorem asksAtMost_encRest (m : BMode) (k : Option Scheme) :
    AsksAtMost (s.inLen.toNat / 16 + 3) fun xs => encRest m k (s.withAnswers xs) := by
  refine .check (fun _ => encAlignCheck_isCheck _ _) <| .check (fun _ => capCheck_isCheck _ _) <|
    .encInput k fun p hp => ?_
  simp only [encCalls_eq_calls]
  refine .mono ?_ (asksAtMost_runBlocks (encChain m) (.encryptBlock s.keyBytes) s.ivBytes p)
  rw [blocks_length]
  omega

theorem decOutput_not_waits (k : Option Scheme) (p : Bytes) (q : Request) : decOutput k p ≠ .error (.wait q) := by
  cases k with
  | none => nofun
  | some k =>
    rw [decOutput_some]
    split
    · nofun
    · exact stripOr_not_waits k p _ q

theorem asksAtMost_decRest (m : BMode) (k : Option Scheme) :
    AsksAtMost (s.inLen.toNat / 16 + 3) fun xs => decRest m k (s.withAnswers xs) := by
  refine .check (fun _ => decAlignCheck_isCheck _ _) <| .check (fun _ => capCheck_isCheck _ _) <|
    .bind ?_ fun p _ => decOutput_not_waits k p
  simp only [decCalls_eq_calls]
  refine .mono ?_ (asksAtMost_runBlocks (decChain m) (decRequest m s.keyBytes) s.ivBytes s.inBytes)
  rw [blocks_length, inBytes_length]
  omega

theorem AsksAtMost.gcmChecked (v : GVar) {rest : List Answered → Cmd Bytes} (h : AsksAtMost n rest) :
    AsksAtMost (n + 2) fun xs => Machine.gcmChecked v (s.withAnswers xs) (rest xs) :=
  .check (fun _ => emptyData_isCheck _) <| .check (fun _ => validKeySize_isCheck _) <|
    .check (fun _ => nonceCheck_isCheck _ _) <| .check (fun _ => validTagSize_isCheck _) <|
      .init (.cipherInit s.keyBytes) <| .init (.aeadInit s.ivLen.toNat (gcmTag v s)) h

theorem asksAtMost_gcmEncRest (v : GVar) : AsksAtMost 1 fun xs => gcmEncRest v (s.withAnswers xs) := by
  refine .check (fun _ => validDataSize_isCheck _ _) <| .check (fun _ => capCheck_isCheck _ _) ?_
  simp only [askData_sealData _ _ _ _ _ _ .ok 0]
  exact asksAtMost_askBytes (.sealData (gcmTag v s) s.keyBytes s.ivBytes s.inBytes s.aadBytes) _ _

theorem asksAtMost_gcmDecRest (v : GVar) : AsksAtMost 1 fun xs => gcmDecRest v (s.withAnswers xs) :=
  .check (fun _ => gcmDecSizeCheck_isCheck _ _) <| .check (fun _ => capCheck_isCheck _ _) <|
    .check (fun _ => gcmShortCheck_isCheck _ _) <|
      asksAtMost_askBytes (.openData (gcmTag v s) s.keyBytes s.ivBytes s.inBytes s.aadBytes) _ _

/-- A command makes at most one request for every 16 bytes of its input and four more: the cipher's construction,
the filler and the blocks that a trailer can add, or the three requests of a GCM command. -/
theorem asksAtMost_body (c : Command) :
    AsksAtMost (s.inLen.toNat / 16 + 4) fun xs => Command.body c (s.withAnswers xs) := by
  cases c with
  | pad k => exact (asksAtMost_padCmd k).mono (by omega)
  | unpad k => exact (asksAtMost_unpadCmd k).mono (by omega)
  | val p => exact .check (fun _ => predCheck_isCheck p _ _) (asksAtMost_ok [])
  | enc m k => exact .modeChecked m (asksAtMost_encRest m k)
  | dec m k => exact .modeChecked m (asksAtMost_decRest m k)
  | encGcm v =>
    simp only [Command.body, gcmEnc_eq_gcmChecked]
    exact .mono (by omega) (.gcmChecked v (asksAtMost_gcmEncRest v))
  | decGcm v =>
    simp only [Command.body, gcmDec_eq_gcmChecked]
    exact .mono (by omega) (.gcmChecked v (asksAtMost_gcmDecRest v))

end

end Sys2Proof.Machine
end

section
/-! PROOFS. Rounds of a sequencer step and an answer: each answers one more of the command's requests, so the rounds
are one more than the requests (70_reset_and_hazards.md R281). -/

namespace Sys2Proof.Machine

/-- The machine when its request `q` has been answered with `a` and no turn is left. -/
def State.afterAnswer (s : State) (q : Request) (a : Answer) : State :=
  { s with
    turns      := []
    pending    := none
    answers    := s.answers ++ [⟨q, a⟩]
    transcript := s.transcript ++ [⟨q, a⟩] }

/-- The pseudocode of the command does not depend on the turns, and so not on where the rounds take them. -/
theorem sequencerMoves_eq {s : State} {i : Instr} (hb : s.busy = true) (hd : decode s.cmd = .ok i) :
    s.sequencerMoves = .next (conclude { s with turns := [] } (Command.body i.command s)) := by
  have hbody : Command.body i.command { s with turns := [] } = Command.body i.command s :=
    body_congr (fun o _ => by cases o <;> rfl) rfl rfl
  rw [← hbody]
  exact (sequencerStep_decoded (s := { s with turns := [] }) hb hd).trans (exec_eq i _)

/-- The machine after a round in which the running command has made the request `q` and got the answer `a`. -/
def State.afterRound (s : State) (q : Request) (a : Answer) : State :=
  (waitFor { s with turns := [] } q).afterAnswer q a

/-- Of what the run of a command depends on, a round changes the answers alone. -/
theorem afterRound_frame (s : State) (q : Request) (a : Answer) :
    (s.afterRound q a).busy = s.busy ∧ (s.afterRound q a).cmd = s.cmd ∧ (s.afterRound q a).pending = none ∧
      (s.afterRound q a).answers = s.answers ++ [⟨q, a⟩] ∧
      ∀ c xs, Command.body c ((s.afterRound q a).withAnswers xs) = Command.body c (s.withAnswers xs) := by
  rw [State.afterRound, waitFor_frame]
  refine ⟨rfl, rfl, rfl, rfl, fun c xs => body_congr (fun o _ => ?_) rfl rfl⟩
  cases o <;> rfl

section
variable {f : State → Answer} {s t : State}

/-- A round after whose first half no request is outstanding. -/
theorem answeredRound_of_quiet (h : s.sequencerMoves = .next t) (hp : t.pending = none) :
    answeredRound f s = t := by
  rw [answeredRound, h]
  dsimp only
  rw [hp]

/-- A round in which a request is answered. -/
theorem answeredRound_of_outstanding {o : Outstanding} (h : s.sequencerMoves = .next t) (hp : t.pending = some o)
    (hl : lawfulAnswer t.transcript o.request (f t) = true) :
    answeredRound f s = t.afterAnswer o.request (f t) := by
  have hstep : step { t with turns := [.collaborator o.ticket (f t)] } = .next (t.afterAnswer o.request (f t)) :=
    (step_collaborator rfl).trans (answerArrives_lawful (s := { t with turns := [] }) hp hl)
  rw [answeredRound, h]
  dsimp only
  split
  case h_1 hnone => cases hp.symm.trans hnone
  case h_2 o' ho =>
    cases hp.symm.trans ho
    rw [hstep]

/-- The environment answers lawfully from the next round on. -/
theorem answersLawfully_answeredRound (h : answersLawfully f s) : answersLawfully f (answeredRound f s) :=
  fun n => h (n + 1)

/-- A round of a running command ends it, or answers the request it waits for. -/
theorem answeredRound_cases {i : Instr} (hb : s.busy = true) (hp : s.pending = none) (hd : decode s.cmd = .ok i)
    (hlaw : answersLawfully f s) :
    ((answeredRound f s).busy = false ∧ (answeredRound f s).done = true) ∨
      ∃ q a, Command.body i.command s = .error (.wait q) ∧ q.fits a = true ∧
        answeredRound f s = s.afterRound q a := by
  have hmoves := sequencerMoves_eq hb hd
  rcases body_goodEnd i.command s with ⟨out, hbody, -⟩ | ⟨code, arg, -, hbody⟩ | ⟨q, -, hbody⟩ <;>
    rw [hbody] at hmoves
  · rw [answeredRound_of_quiet hmoves rfl]
    exact .inl ⟨rfl, rfl⟩
  · rw [answeredRound_of_quiet hmoves rfl]
    exact .inl ⟨rfl, rfl⟩
  · have hout : (waitFor { s with turns := [] } q).pending = some ⟨s.tickets, q⟩ := by simp [waitFor, hp]
    have hl := hlaw 0 _ _ hmoves hout
    exact .inr ⟨q, _, hbody, fits_of_lawfulAnswer hl, answeredRound_of_outstanding hmoves hout hl⟩

/-- A running command has completed one round after its last request. -/
theorem answeredRounds_complete {i : Instr} {n : Nat} (hb : s.busy = true) (hp : s.pending = none)
    (hd : decode s.cmd = .ok i) (hasks : AsksFrom (fun xs => Command.body i.command (s.withAnswers xs)) n s.answers)
    (hlaw : answersLawfully f s) :
    ∃ m ≤ n + 1, (answeredRounds f m s).busy = false ∧ (answeredRounds f m s).done = true := by
  induction n generalizing s with
  | zero =>
    rcases answeredRound_cases hb hp hd hlaw with hend | ⟨q, a, hbody, -, -⟩
    · exact ⟨1, Nat.le_refl _, hend⟩
    · exact absurd hbody (hasks q)
  | succ n ih =>
    rcases answeredRound_cases hb hp hd hlaw with hend | ⟨q, a, hbody, hfits, hround⟩
    · exact ⟨1, by omega, hend⟩
    · obtain ⟨hbusy, hcmd, hpending, hanswers, hrun⟩ := afterRound_frame s q a
      have hnext := answersLawfully_answeredRound hlaw
      rw [hround] at hnext
      obtain ⟨m, hm, hend⟩ := ih (hbusy.trans hb) hpending (hcmd ▸ hd)
        (by simpa only [hrun, hanswers] using hasks q a hbody hfits) hnext
      refine ⟨m + 1, by omega, ?_⟩
      rwa [answeredRounds, hround]

/-- An illegal word has completed after one round (30_encoding.md R78). -/
theorem answeredRound_of_illegal {e : DecodeError} (hb : s.busy = true) (hd : decode s.cmd = .error e) :
    (answeredRound f s).busy = false ∧ (answeredRound f s).done = true := by
  rw [answeredRound_of_quiet (sequencerStep_illegal (s := { s with turns := [] }) hb hd) rfl]
  exact ⟨rfl, rfl⟩

end

end Sys2Proof.Machine
end

section
/-! PROOFS. The obligation of 70_reset_and_hazards.md about completion, from the lemmas above. -/

namespace Sys2Proof.Proofs

open Sys2Proof.Machine

/-- Settles O59: the rounds are one more than the requests, and the requests are bounded by the input's length. -/
theorem completesWhenAnswered : Obligations.CompletesWhenAnswered := by
  intro f s w hlaw
  rcases hd : decode w with e | i
  · exact ⟨1, by omega, answeredRound_of_illegal rfl hd⟩
  · obtain ⟨n, hn, hend⟩ :=
      answeredRounds_complete (s := accept s w) rfl rfl hd (asksAtMost_body i.command _) hlaw
    rw [accept_inLen] at hn
    exact ⟨n, by omega, hend⟩

end Sys2Proof.Proofs
end

section
/-! PROOFS. What a read while Busy returns: the registers, STATUS bit by bit, the results and the windows
(70_reset_and_hazards.md R275; 20_memory.md R51, R54). -/

namespace Sys2Proof.Machine

/-- A legal access below 2^28 is a word access (20_memory.md R53). -/
theorem width_of_legalAccess {off : Nat} {w : Width} (hl : legalAccess off w) (h : off < 2 ^ 28) : w = .word := by
  rcases hl with ⟨rfl, -⟩ | ⟨hge, -⟩
  · rfl
  · omega

/-- A register other than STATUS and the results reads while Busy as it is (70_reset_and_hazards.md R275). -/
theorem readRegBusy_operand (s : State) (d : Word) {r : Reg} (hstatus : r.offset ≠ 0x004)
    (hresult : r.offset ∉ resultOffsets) : readRegBusy s d r = readReg s r := by
  cases r
  case status => exact absurd rfl hstatus
  case errargLo | errargHi | outLenLo | outLenHi => exact absurd (by decide) hresult
  all_goals rfl

/-- The results are the registers that read while Busy as the draw. -/
theorem exists_result_register (s : State) (d : Word) {off : Nat} (h : off ∈ resultOffsets) :
    ∃ r : Reg, off = r.offset ∧ readRegBusy s d r = d := by
  simp only [resultOffsets, List.mem_cons, List.not_mem_nil, or_false] at h
  rcases h with rfl | rfl | rfl | rfl
  exacts [⟨.errargLo, rfl, rfl⟩, ⟨.errargHi, rfl, rfl⟩, ⟨.outLenLo, rfl, rfl⟩, ⟨.outLenHi, rfl, rfl⟩]

/-- STATUS as a number, each field at its weight (10_state.md R24). -/
theorem statusOf_toNat (busy done busywr : Bool) (err : Byte) :
    (statusOf busy done busywr err).toNat =
      busy.toNat + 2 * done.toNat + 4 * busywr.toNat + 256 * err.toNat := by
  have := err.isLt
  have := busy.toNat_lt
  have := done.toNat_lt
  have := busywr.toNat_lt
  rw [statusOf_eq, BitVec.toNat_ofNat]
  omega

/-- A bit of a word is the digit at its weight. -/
theorem getLsbD_eq_of_div {v : Word} {i : Nat} {b : Bool} (h : v.toNat / 2 ^ i % 2 = b.toNat) : v.getLsbD i = b := by
  rw [← BitVec.testBit_toNat, Nat.testBit_eq_decide_div_mod_eq, h]
  cases b <;> rfl

/-- A field of a word is the digits at its weight. -/
theorem extractLsb'_eq_of_div {v : Word} {i n : Nat} {x : BitVec n} (h : v.toNat / 2 ^ i % 2 ^ n = x.toNat) :
    v.extractLsb' i n = x := by
  apply BitVec.eq_of_toNat_eq
  rw [BitVec.extractLsb'_toNat, Nat.shiftRight_eq_div_pow, h]

/-- STATUS, field by field, the reserved bits 0 (10_state.md R24). -/
theorem statusOf_fields (busy done busywr : Bool) (err : Byte) :
    (statusOf busy done busywr err).getLsbD 0 = busy ∧ (statusOf busy done busywr err).getLsbD 1 = done ∧
      (statusOf busy done busywr err).getLsbD 2 = busywr ∧
      (statusOf busy done busywr err).extractLsb' 3 5 = 0 ∧
      (statusOf busy done busywr err).extractLsb' 8 8 = err ∧
      (statusOf busy done busywr err).extractLsb' 16 16 = 0 := by
  have hv := statusOf_toNat busy done busywr err
  have := err.isLt
  have := busy.toNat_lt
  have := done.toNat_lt
  have := busywr.toNat_lt
  exact ⟨getLsbD_eq_of_div (by omega), getLsbD_eq_of_div (by omega), getLsbD_eq_of_div (by omega),
    extractLsb'_eq_of_div (show _ = 0 by omega), extractLsb'_eq_of_div (by omega),
    extractLsb'_eq_of_div (show _ = 0 by omega)⟩

end Sys2Proof.Machine
end

section
/-! PROOFS. Every command but VAL checks first that there is input (40_padding.md R105, R112; 42_modes.md R186 to
R189). -/

namespace Sys2Proof.Machine

theorem body_of_empty {c : Command} {s : State} (hc : ∀ p, c ≠ .val p) (h : s.inLen.toNat = 0) :
    Command.body c s = raise .emptyData 0 := by
  cases c with
  | pad k => rw [Command.body, padCmd, padEmptyCheck, if_pos h, cmd_raise_bind]
  | unpad k => rw [Command.body, unpadCmd, padEmptyCheck, if_pos h, cmd_raise_bind]
  | val p => exact absurd rfl (hc p)
  | enc m k => exact modeChecked_of_empty h
  | dec m k => exact modeChecked_of_empty h
  | encGcm v => exact (gcmEnc_eq_gcmChecked v s).trans (gcmChecked_of_empty h)
  | decGcm v => exact (gcmDec_eq_gcmChecked v s).trans (gcmChecked_of_empty h)

end Sys2Proof.Machine
end

section
/-! PROOFS. The obligations of 70_reset_and_hazards.md about reset and about accesses while Busy, from the lemmas
above. -/

namespace Sys2Proof.Proofs

open Sys2Proof.Machine

/-- Settles O11: a register read is `readRegBusy`, a read of a buffer or reserved region is its bytes' `windowByte`. -/
theorem busyReads : Obligations.BusyReads := by
  intro s off w ts hb h hl
  have hregister (r : Reg) (d : Word) : readValue s d r.offset .word = readRegBusy s d r := by
    rw [readValue_register, if_pos hb]
  have hbyte (j : Nat) (hj : j < w.bytes) (hoff : 1 ≤ off / 2 ^ 28) :
      (readValue s (Config.freeWord s.draws) off w).extractLsb' (8 * j) 8 =
        windowByte s ((Config.freeWord s.draws).extractLsb' (8 * j) 8) (off + j) :=
    readValue_window_byte s _ hl (by omega) hj
  refine ⟨readValue s (Config.freeWord s.draws) off w, ?_, fun x hx hstatus hresult => ?_, fun hstatus => ?_,
    fun hresult => ?_, fun j hj hlo hhi => ?_, fun j hj h5 => ?_, fun j hj h6 => ?_⟩
  · rw [step_read h hl, busRead, readValue_turns]
    simp [hb]
  · rw [registerValues_eq] at hx
    obtain ⟨r, -, hr⟩ := List.mem_map.mp hx
    cases hr
    obtain rfl := width_of_legalAccess hl (by have := reg_offset_lt r; omega)
    rw [hregister, readRegBusy_operand s _ hstatus hresult]
  · subst hstatus
    obtain rfl := width_of_legalAccess hl (by omega)
    have hstatus := hregister .status (Config.freeWord s.draws)
    rw [readRegBusy, hb] at hstatus
    exact hstatus ▸ statusOf_fields true s.done s.busywr ((Config.freeWord s.draws).extractLsb' 0 8)
  · obtain ⟨r, rfl, hr⟩ := exists_result_register s (Config.freeWord s.draws) hresult
    obtain rfl := width_of_legalAccess hl (by have := reg_offset_lt r; omega)
    rw [hregister, hr]
  · have hin := legalAccess_inRegion hl hj
    rw [hbyte j hj hlo, windowByte_input _ _ (by rwa [regionOf_add hin]) (by rwa [regionOf_add hin]),
      withinRegion_add hin]
  · have hin := legalAccess_inRegion hl hj
    rw [hbyte j hj (by omega), windowByte_output _ _ (by rwa [regionOf_add hin]), withinRegion_add hin, if_pos hb]
  · have hin := legalAccess_inRegion hl hj
    rw [hbyte j hj (by omega), windowByte_reserved _ _ (by rwa [regionOf_add hin])]

/-- Settles O1: the values by `State.reset`, the end of a command by IN_LEN = 0, and that of a VAL command by its
predicate at ARG0 = ARG1 = 0. -/
theorem resetState : Obligations.ResetState := by
  refine ⟨rfl, rfl, rfl, rfl, rfl, rfl, rfl, rfl, rfl, rfl, rfl, rfl, rfl, rfl, rfl, rfl, rfl, rfl, rfl, fun _ => rfl,
    rfl, fun _ _ => rfl, rfl, fun i w hi => ?_, fun w => ?_⟩
  · rw [exec_eq, body_of_empty hi rfl, conclude_raise]
  · have hval (p : Pred) := exec_instr (.val p) (accept State.reset w)
    exact ⟨hval .keysize, hval .blocksize, hval .ivsize, hval .iveq, hval .ciphertext, hval .stdnonce,
      hval .noncesize, hval .tagsize, hval .datasize, hval .empty⟩

/-- Settles O2: the reset's turn is `resetEvent`. -/
theorem resetEvent : Obligations.ResetEvent := fun _ _ => step_reset

/-- Settles O10: a write within the access rules sets BUSYWR, and one that breaks them is a bus error. -/
theorem busyWriteOnlySetsBusywr : Obligations.BusyWriteOnlySetsBusywr := fun _ _ _ _ _ hb h =>
  ⟨step_write_busy hb h, fun hl herr => (step_illegalAccess h hl).trans (if_pos herr)⟩

end Sys2Proof.Proofs
end
